-- ==== Sys2Proof/Word.lean ====
section
/-! DEFINITION. The word types of EPD-SEQ (R11, R22, R25): a byte, a 16-bit coordinate field and a
32-bit host register. Every value of the block is unsigned (R11); arithmetic is done on `Nat`, exactly,
and narrowed only where a rule says so (R12). -/

namespace Sys2Proof

/-- A byte (R11): bus command and data bytes, LUT entries, pixels, the fill byte. -/
abbrev Byte := BitVec 8

/-- A 16-bit unsigned field of a host register: OX, OY, BW, BH (R25, R26). -/
abbrev Half := BitVec 16

/-- A 32-bit host register or op word (R22, R80). -/
abbrev Word := BitVec 32

end Sys2Proof
end

