-- ==== Sys2Proof/Syntax.lean ====
section
/-! DEFINITION. What the block can be told to do and what it can send: the six host operations of format H
(R81) and the sixteen panel bus commands of format B (R86). `Instr` has one constructor per row of
spec/opcode_table.json. -/

namespace Sys2Proof

/-- The LUT mode of INIT and SETLUT (R23, R30): MD = 0 is Full, MD = 1 is Partial. -/
inductive LutMode where
  | fullUpdate
  | partialUpdate
deriving DecidableEq, Repr, Inhabited

/-- The six legal operation codes (R81). -/
inductive OpCode where
  | init
  | setlut
  | clear
  | draw
  | refresh
  | sleep
deriving DecidableEq, Repr, Inhabited

/-- The sixteen commands the block emits, and no other (R86, R88). -/
inductive CmdName where
  | driverOutputControl
  | boosterSoftStartControl
  | writeVcomRegister
  | setDummyLinePeriod
  | setGateTime
  | dataEntryModeSetting
  | writeLutRegister
  | setRamXAddressStartEndPosition
  | setRamYAddressStartEndPosition
  | setRamXAddressCounter
  | setRamYAddressCounter
  | writeRam
  | displayUpdateControl2
  | masterActivation
  | terminateFrameReadWrite
  | deepSleepMode
deriving DecidableEq, Repr, Inhabited

/-- Every command name, in the order of R86. -/
def CmdName.all : List CmdName :=
  [.driverOutputControl, .boosterSoftStartControl, .writeVcomRegister, .setDummyLinePeriod,
   .setGateTime, .dataEntryModeSetting, .writeLutRegister, .setRamXAddressStartEndPosition,
   .setRamYAddressStartEndPosition, .setRamXAddressCounter, .setRamYAddressCounter, .writeRam,
   .displayUpdateControl2, .masterActivation, .terminateFrameReadWrite, .deepSleepMode]

/-- The instructions of the block (R2: "Its instructions are the host operations ... and the panel bus
commands it emits"). INIT and SETLUT carry the mode, CLEAR the fill byte; DRAW's operands come from host
registers (R83), a bus command's payload from the running op's latches and the parameters (R86). -/
inductive Instr where
  | init (mode : LutMode)
  | setlut (mode : LutMode)
  | clear (fill : Byte)
  | draw
  | refresh
  | sleep
  | driverOutputControl
  | boosterSoftStartControl
  | writeVcomRegister
  | setDummyLinePeriod
  | setGateTime
  | dataEntryModeSetting
  | writeLutRegister
  | setRamXAddressStartEndPosition
  | setRamYAddressStartEndPosition
  | setRamXAddressCounter
  | setRamYAddressCounter
  | writeRam
  | displayUpdateControl2
  | masterActivation
  | terminateFrameReadWrite
  | deepSleepMode
deriving DecidableEq, Repr, Inhabited

/-- The instruction that a bus command is (R86). -/
def CmdName.toInstr : CmdName → Instr
  | .driverOutputControl => .driverOutputControl
  | .boosterSoftStartControl => .boosterSoftStartControl
  | .writeVcomRegister => .writeVcomRegister
  | .setDummyLinePeriod => .setDummyLinePeriod
  | .setGateTime => .setGateTime
  | .dataEntryModeSetting => .dataEntryModeSetting
  | .writeLutRegister => .writeLutRegister
  | .setRamXAddressStartEndPosition => .setRamXAddressStartEndPosition
  | .setRamYAddressStartEndPosition => .setRamYAddressStartEndPosition
  | .setRamXAddressCounter => .setRamXAddressCounter
  | .setRamYAddressCounter => .setRamYAddressCounter
  | .writeRam => .writeRam
  | .displayUpdateControl2 => .displayUpdateControl2
  | .masterActivation => .masterActivation
  | .terminateFrameReadWrite => .terminateFrameReadWrite
  | .deepSleepMode => .deepSleepMode

/-- The two encoded interfaces of the block: a format H op word (R80), or the command byte that opens a
format B transaction (R86; the transport tags it as a command, R87). -/
inductive Encoding where
  | opWord (w : Word)
  | busCode (b : Byte)
deriving DecidableEq, Repr

end Sys2Proof
end

