-- ==== Sys2Proof/Config.lean ====
section
/-! DEFINITION. The implementation parameters of R8, the fixed data constants of R9, the defaults of R94
and R97, and the free values: constants with no body for what the spec leaves to the environment or calls
unspecified (spec/93_implementation_defined.md, treatment `any value`). -/

namespace Sys2Proof

/-- `BUSY_WAIT_MODE` (R8, R210, R211). -/
inductive BusyWaitMode where
  | poll
  | referenceNoop
deriving DecidableEq, Repr

/-- `PLATFORM_ORDERING` (R60, D34): whether the platform makes the host's bitmap writes reach bitmap memory
before the `OP` write that follows them. DESIGN CHOICE (log entry 9): the spec names the parameter and not
its values; on an unordered platform every bitmap byte the host has written reads as any byte. -/
inductive PlatformOrdering where
  | ordered
  | unordered
deriving DecidableEq, Repr

/-- `CMD : name → byte`, the command-code table (R8, R94), as plain data. -/
structure CmdTable where
  driverOutputControl : Byte
  boosterSoftStartControl : Byte
  writeVcomRegister : Byte
  setDummyLinePeriod : Byte
  setGateTime : Byte
  dataEntryModeSetting : Byte
  writeLutRegister : Byte
  setRamXAddressStartEndPosition : Byte
  setRamYAddressStartEndPosition : Byte
  setRamXAddressCounter : Byte
  setRamYAddressCounter : Byte
  writeRam : Byte
  displayUpdateControl2 : Byte
  masterActivation : Byte
  terminateFrameReadWrite : Byte
  deepSleepMode : Byte
deriving DecidableEq, Repr

/-- `CMD(name)` (R94). -/
def CmdTable.code (t : CmdTable) : CmdName → Byte
  | .driverOutputControl => t.driverOutputControl
  | .boosterSoftStartControl => t.boosterSoftStartControl
  | .writeVcomRegister => t.writeVcomRegister
  | .setDummyLinePeriod => t.setDummyLinePeriod
  | .setGateTime => t.setGateTime
  | .dataEntryModeSetting => t.dataEntryModeSetting
  | .writeLutRegister => t.writeLutRegister
  | .setRamXAddressStartEndPosition => t.setRamXAddressStartEndPosition
  | .setRamYAddressStartEndPosition => t.setRamYAddressStartEndPosition
  | .setRamXAddressCounter => t.setRamXAddressCounter
  | .setRamYAddressCounter => t.setRamYAddressCounter
  | .writeRam => t.writeRam
  | .displayUpdateControl2 => t.displayUpdateControl2
  | .masterActivation => t.masterActivation
  | .terminateFrameReadWrite => t.terminateFrameReadWrite
  | .deepSleepMode => t.deepSleepMode

/-- The parameters of one instance of the block (R8). They are fixed for the instance: no step changes
them. Whether they are acceptable is `Params.wf` (WellFormed.lean). -/
structure Params where
  /-- `PW`, pixels. -/
  panelWidth : Nat
  /-- `PH`, pixels. -/
  panelHeight : Nat
  /-- The LUT ROM `LUT_FULL` (R31). -/
  lutFull : List Byte
  /-- The LUT ROM `LUT_PARTIAL` (R31). -/
  lutPartial : List Byte
  /-- `CMD`. -/
  cmd : CmdTable
  /-- `RESET_LOW_MS`. -/
  resetLowMs : Nat
  /-- `RESET_HIGH_MS`. -/
  resetHighMs : Nat
  /-- `BUSY_WAIT_MODE`. -/
  busyWaitMode : BusyWaitMode
  /-- `BMP_MEM_BYTES`. -/
  bmpMemBytes : Nat
  /-- `PLATFORM_ORDERING`. -/
  platformOrdering : PlatformOrdering
deriving DecidableEq, Repr

namespace Config

/-- `LUT_LEN` (R8): "exactly 30 bytes". -/
def lutLen : Nat := 30

/-- `POLL_INTERVAL_MS` (R8): fixed. -/
def pollIntervalMs : Nat := 100

/-- `GATE_SCAN_DIR` (R9): "normal". -/
def gateScanDir : Byte := 0x00#8

/-- `BOOSTER` (R9, R133). -/
def booster : List Byte := [0xD7#8, 0xD6#8, 0x9D#8]

/-- `VCOM` (R9, R134). -/
def vcom : Byte := 0xA8#8

/-- `DUMMY_LINE` (R9, R137). -/
def dummyLine : Byte := 0x1A#8

/-- `GATE_TIME` (R9, R138). -/
def gateTime : Byte := 0x08#8

/-- `DATA_ENTRY` (R9, R139): X-increment, Y-increment. -/
def dataEntry : Byte := 0x03#8

/-- `UPDATE_CTRL` (R9, R196). -/
def updateCtrl : Byte := 0xC4#8

/-- The default command-code table of R94 (the spec marks it as general knowledge: log entry 2). -/
def defaultCmd : CmdTable where
  driverOutputControl := 0x01#8
  boosterSoftStartControl := 0x0C#8
  deepSleepMode := 0x10#8
  dataEntryModeSetting := 0x11#8
  masterActivation := 0x20#8
  displayUpdateControl2 := 0x22#8
  writeRam := 0x24#8
  writeVcomRegister := 0x2C#8
  writeLutRegister := 0x32#8
  setDummyLinePeriod := 0x3A#8
  setGateTime := 0x3B#8
  setRamXAddressStartEndPosition := 0x44#8
  setRamYAddressStartEndPosition := 0x45#8
  setRamXAddressCounter := 0x4E#8
  setRamYAddressCounter := 0x4F#8
  terminateFrameReadWrite := 0xFF#8

/-- The default `LUT_FULL` of R97 (general knowledge: log entry 2). -/
def defaultLutFull : List Byte :=
  [0x02#8, 0x02#8, 0x01#8, 0x11#8, 0x12#8, 0x12#8, 0x22#8, 0x22#8,
   0x66#8, 0x69#8, 0x69#8, 0x59#8, 0x58#8, 0x99#8, 0x99#8, 0x88#8,
   0x00#8, 0x00#8, 0x00#8, 0x00#8, 0xF8#8, 0xB4#8, 0x13#8, 0x51#8,
   0x35#8, 0x51#8, 0x51#8, 0x19#8, 0x01#8, 0x00#8]

/-- The default `LUT_PARTIAL` of R97 (general knowledge: log entry 2). -/
def defaultLutPartial : List Byte :=
  [0x10#8, 0x18#8, 0x18#8, 0x08#8, 0x18#8, 0x18#8, 0x08#8, 0x00#8,
   0x00#8, 0x00#8, 0x00#8, 0x00#8, 0x00#8, 0x00#8, 0x00#8, 0x00#8,
   0x00#8, 0x00#8, 0x00#8, 0x00#8, 0x13#8, 0x14#8, 0x44#8, 0x12#8,
   0x00#8, 0x00#8, 0x00#8, 0x00#8, 0x00#8, 0x00#8]

/-- This hardware's parameters: the values R8 fixes, the defaults of R94, R97 and R210, and for the OPEN
`BMP_MEM_BYTES` the largest value R8 allows (DESIGN CHOICE, log entry 3). -/
def defaultParams : Params where
  panelWidth := 200
  panelHeight := 200
  lutFull := defaultLutFull
  lutPartial := defaultLutPartial
  cmd := defaultCmd
  resetLowMs := 200
  resetHighMs := 200
  busyWaitMode := .poll
  bmpMemBytes := 2 ^ 32
  platformOrdering := .ordered

end Config

/-- What the adapter answers to one command or data byte (R14, R39). -/
inductive Resp where
  | ok
  | err
deriving DecidableEq, Repr, Inhabited

/-- What `ReadBusy()` returns (R14, R39): Low = idle, High = busy, or an I/O error. -/
inductive BusyResp where
  | low
  | high
  | err
deriving DecidableEq, Repr, Inhabited

namespace Config

/-- FREE VALUE (U25): the n-th draw of a transport response, where the state's script of responses has
run out. -/
opaque freeResp : Nat → Resp

/-- FREE VALUE (U25): the n-th draw of a busy reading, where the state's script has run out. -/
opaque freeBusy : Nat → BusyResp

/-- FREE VALUE (R64, U7): what a DRAW reads, on the n-th draw, at a bitmap byte the host has written while
it may not. -/
opaque freePixel : Nat → Byte

/-- FREE VALUE (U16): the latched operation code outside an op. -/
opaque freeOp : Nat → OpCode

/-- FREE VALUE (U16): the latched mode outside an op. -/
opaque freeMode : Nat → LutMode

/-- FREE VALUE (U16): the latched fill byte outside an op. -/
opaque freeFill : Nat → Byte

/-- FREE VALUE (U16): the k-th 16-bit argument latch (x, y, width, height) outside an op. -/
opaque freeHalf : (k : Nat) → Nat → Half

/-- FREE VALUE (U16): the latched base address outside an op. -/
opaque freeBase : Nat → Word

/-- FREE VALUE (U16): the k-th window or pointer latch (xs, ys, xe, ye, px, py) outside an op. -/
opaque freeCoord : (k : Nat) → Nat → Nat

end Config

end Sys2Proof
end

