-- ==== Sys2Proof/WellFormed.lean ====
section
/-! DEFINITION. What is refused before anything runs: a set of parameters that R8, R89, R142 or R301 does
not allow (U4, U5, U6: refused when the instance is built), an op word that breaks a must-be-zero field
(R82), and a host register access that is not an aligned 32-bit access (R56, U1). A term of `Instr` has no
check of its own: its fields (a mode, a byte) admit no ill-formed value. -/

namespace Sys2Proof

/-- `PW`: a multiple of 8 with 8 ≤ PW ≤ 2048 (R8, D20). -/
def Params.widthOk (p : Params) : Bool :=
  p.panelWidth % 8 == 0 && 8 ≤ p.panelWidth && p.panelWidth ≤ 2048

/-- `PH`: 1 ≤ PH ≤ 65536 (R8, D20). -/
def Params.heightOk (p : Params) : Bool :=
  1 ≤ p.panelHeight && p.panelHeight ≤ 65536

/-- Both LUT tables hold exactly 30 bytes (R142, U6). -/
def Params.lutsOk (p : Params) : Bool :=
  p.lutFull.length == Config.lutLen && p.lutPartial.length == Config.lutLen

/-- The table gives every command name a byte of its own (R89, R94, U4). -/
def CmdTable.distinct (t : CmdTable) : Bool :=
  (CmdName.all.map t.code).Nodup

/-- Both reset holds are at least 200 ms (R301, U5). -/
def Params.holdsOk (p : Params) : Bool :=
  200 ≤ p.resetLowMs && 200 ≤ p.resetHighMs

/-- 1 ≤ BMP_MEM_BYTES ≤ 2^32 (R8). -/
def Params.bmpMemOk (p : Params) : Bool :=
  1 ≤ p.bmpMemBytes && p.bmpMemBytes ≤ 2 ^ 32

/-- The parameters an instance may be built from (R8, R89, R142, R301). -/
def Params.wf (p : Params) : Bool :=
  p.widthOk && p.heightOk && p.lutsOk && p.cmd.distinct && p.holdsOk && p.bmpMemOk

/-- An instance of the block: parameters with the proof that they are acceptable, so that no state can
hold an instance that R142 or spec/93 U4-U6 refuses. -/
structure BlockInstance where
  params : Params
  ok : params.wf = true
deriving DecidableEq, Repr

/-- Building an instance: refused (`none`) when the parameters are not acceptable (R89, R142, R301). -/
def BlockInstance.build (p : Params) : Option BlockInstance :=
  if h : p.wf = true then some ⟨p, h⟩ else none

/-- This hardware's instance (R8). -/
def BlockInstance.default : BlockInstance := ⟨Config.defaultParams, by decide⟩

/-- The must-be-zero fields of format H (R82): `res` [7:5] and [31:16] always, MD unless OPC is 0x1 or 0x2,
FILL unless OPC is 0x3. -/
def opWordMustBeZeroOk (w : Word) : Bool :=
  w.extractLsb' 5 3 == 0#3 && w.extractLsb' 16 16 == 0#16
    && (w.extractLsb' 4 1 == 0#1 || w.extractLsb' 0 4 == 0x1#4 || w.extractLsb' 0 4 == 0x2#4)
    && (w.extractLsb' 8 8 == 0#8 || w.extractLsb' 0 4 == 0x3#4)

/-- A host register access inside the defined interface (R56, U1): 32 bits wide, at an offset that is a
multiple of 4. -/
def hostAccessOk (offset : BitVec 8) (bits : Nat) : Bool :=
  bits == 32 && offset.toNat % 4 == 0

end Sys2Proof
end

