-- ==== Sys2Proof/Decode.lean ====
section
/-! DEFINITION. The decoder of both formats, total on every word and byte and rejecting by name (R84, R89),
and the encoder, written from the field table of R80 and the code table of R94. -/

namespace Sys2Proof

/-- Why an encoding is no instruction. The block itself records no more than ILLEGAL_OP (R261). -/
inductive Illegal where
  /-- `res` [7:5] or [31:16] is not 0 (R82). -/
  | reservedBits
  /-- FILL is not 0 and OPC is not 0x3 (R82). -/
  | fillSet
  /-- MD is not 0 and OPC is neither 0x1 nor 0x2 (R82). -/
  | modeSet
  /-- OPC is 0x0 or 0x7-0xF (R81). -/
  | reservedOpcode
  /-- No command of R86 has this code (R88). -/
  | unknownCommand
deriving DecidableEq, Repr

/-- `OPC`, bits [3:0] (R80). -/
def opcField (w : Word) : BitVec 4 := w.extractLsb' 0 4

/-- `MD`, bit [4] (R80). -/
def modeField (w : Word) : BitVec 1 := w.extractLsb' 4 1

/-- `res`, bits [7:5] (R80). -/
def resField (w : Word) : BitVec 3 := w.extractLsb' 5 3

/-- `FILL`, bits [15:8] (R80). -/
def fillField (w : Word) : Byte := w.extractLsb' 8 8

/-- The reserved bits [31:16] (R80). -/
def highField (w : Word) : Half := w.extractLsb' 16 16

/-- `mode = (MD = 0) ? Full : Partial` (R83). -/
def modeOf (md : BitVec 1) : LutMode := if md = 0#1 then .fullUpdate else .partialUpdate

/-- The MD bit of a mode (R83). -/
def modeBit : LutMode → BitVec 1
  | .fullUpdate => 0#1
  | .partialUpdate => 1#1

/-- An op that uses neither MD nor FILL: DRAW, REFRESH, SLEEP (R84). -/
def decodePlain (i : Instr) (w : Word) : Except Illegal Instr :=
  if modeField w ≠ 0#1 then .error .modeSet
  else if fillField w ≠ 0#8 then .error .fillSet
  else .ok i

/-- `decode(w)` for a host op word (R84). -/
def decodeHost (w : Word) : Except Illegal Instr :=
  if highField w ≠ 0#16 ∨ resField w ≠ 0#3 then .error .reservedBits
  else if opcField w = 0x1#4 then
    if fillField w ≠ 0#8 then .error .fillSet else .ok (.init (modeOf (modeField w)))
  else if opcField w = 0x2#4 then
    if fillField w ≠ 0#8 then .error .fillSet else .ok (.setlut (modeOf (modeField w)))
  else if opcField w = 0x3#4 then
    if modeField w ≠ 0#1 then .error .modeSet else .ok (.clear (fillField w))
  else if opcField w = 0x4#4 then decodePlain .draw w
  else if opcField w = 0x5#4 then decodePlain .refresh w
  else if opcField w = 0x6#4 then decodePlain .sleep w
  else .error .reservedOpcode

/-- The command name whose code in table `t` is `b` (R86, R94). -/
def cmdOfCode (t : CmdTable) (b : Byte) : Option CmdName :=
  CmdName.all.find? (fun c => t.code c == b)

/-- The bus command a command byte opens, in table `t`; any other byte is never emitted (R88, R89). -/
def decodeBus (t : CmdTable) (b : Byte) : Except Illegal Instr :=
  match cmdOfCode t b with
  | some c => .ok c.toInstr
  | none => .error .unknownCommand

/-- The decoder of both formats. -/
def decode (t : CmdTable) : Encoding → Except Illegal Instr
  | .opWord w => decodeHost w
  | .busCode b => decodeBus t b

/-- The instruction the decoder reads from a row of spec/opcode_table.json: a 32-bit row is format H, an
8-bit row is a command byte of format B in the default table (R94), which is the one the table file gives. -/
def decodeTableWord (nbits w : Nat) : Option Instr :=
  match nbits with
  | 32 => if w < 2 ^ 32 then (decodeHost (BitVec.ofNat 32 w)).toOption else none
  | 8 => if w < 2 ^ 8 then (decodeBus Config.defaultCmd (BitVec.ofNat 8 w)).toOption else none
  | _ => none

/-! ## The encoder -/

/-- Format H (R80): OPC at [3:0], MD at [4], FILL at [15:8], every other bit 0. -/
def opWordOf (opc : BitVec 4) (md : BitVec 1) (fill : Byte) : Word :=
  opc.setWidth 32 ||| md.setWidth 32 <<< 4 ||| fill.setWidth 32 <<< 8

/-- The words of an instruction: format H with the codes of R81, or the command byte of R94. -/
def encode (t : CmdTable) : Instr → Encoding
  | .init mode => .opWord (opWordOf 0x1#4 (modeBit mode) 0#8)
  | .setlut mode => .opWord (opWordOf 0x2#4 (modeBit mode) 0#8)
  | .clear fill => .opWord (opWordOf 0x3#4 0#1 fill)
  | .draw => .opWord (opWordOf 0x4#4 0#1 0#8)
  | .refresh => .opWord (opWordOf 0x5#4 0#1 0#8)
  | .sleep => .opWord (opWordOf 0x6#4 0#1 0#8)
  | .driverOutputControl => .busCode t.driverOutputControl
  | .boosterSoftStartControl => .busCode t.boosterSoftStartControl
  | .writeVcomRegister => .busCode t.writeVcomRegister
  | .setDummyLinePeriod => .busCode t.setDummyLinePeriod
  | .setGateTime => .busCode t.setGateTime
  | .dataEntryModeSetting => .busCode t.dataEntryModeSetting
  | .writeLutRegister => .busCode t.writeLutRegister
  | .setRamXAddressStartEndPosition => .busCode t.setRamXAddressStartEndPosition
  | .setRamYAddressStartEndPosition => .busCode t.setRamYAddressStartEndPosition
  | .setRamXAddressCounter => .busCode t.setRamXAddressCounter
  | .setRamYAddressCounter => .busCode t.setRamYAddressCounter
  | .writeRam => .busCode t.writeRam
  | .displayUpdateControl2 => .busCode t.displayUpdateControl2
  | .masterActivation => .busCode t.masterActivation
  | .terminateFrameReadWrite => .busCode t.terminateFrameReadWrite
  | .deepSleepMode => .busCode t.deepSleepMode

/-! ## The opcode table, as data -/

/-- One row of spec/opcode_table.json: the instruction matches an encoding `e` of `nbits` bits when
`e &&& mask = pattern`. -/
structure TableRow where
  mnemonic : String
  nbits : Nat
  pattern : Nat
  mask : Nat
deriving DecidableEq, Repr

/-- The row of an instruction (R81, R94; "match" and "mask" of spec/opcode_table.json). -/
def tableRow : Instr → TableRow
  | .init _ => ⟨"INIT", 32, 0x00000001, 0xFFFFFFEF⟩
  | .setlut _ => ⟨"SETLUT", 32, 0x00000002, 0xFFFFFFEF⟩
  | .clear _ => ⟨"CLEAR", 32, 0x00000003, 0xFFFF00FF⟩
  | .draw => ⟨"DRAW", 32, 0x00000004, 0xFFFFFFFF⟩
  | .refresh => ⟨"REFRESH", 32, 0x00000005, 0xFFFFFFFF⟩
  | .sleep => ⟨"SLEEP", 32, 0x00000006, 0xFFFFFFFF⟩
  | .driverOutputControl => ⟨"DRIVER_OUTPUT_CONTROL", 8, 0x01, 0xFF⟩
  | .boosterSoftStartControl => ⟨"BOOSTER_SOFT_START_CONTROL", 8, 0x0C, 0xFF⟩
  | .writeVcomRegister => ⟨"WRITE_VCOM_REGISTER", 8, 0x2C, 0xFF⟩
  | .setDummyLinePeriod => ⟨"SET_DUMMY_LINE_PERIOD", 8, 0x3A, 0xFF⟩
  | .setGateTime => ⟨"SET_GATE_TIME", 8, 0x3B, 0xFF⟩
  | .dataEntryModeSetting => ⟨"DATA_ENTRY_MODE_SETTING", 8, 0x11, 0xFF⟩
  | .writeLutRegister => ⟨"WRITE_LUT_REGISTER", 8, 0x32, 0xFF⟩
  | .setRamXAddressStartEndPosition => ⟨"SET_RAM_X_ADDRESS_START_END_POSITION", 8, 0x44, 0xFF⟩
  | .setRamYAddressStartEndPosition => ⟨"SET_RAM_Y_ADDRESS_START_END_POSITION", 8, 0x45, 0xFF⟩
  | .setRamXAddressCounter => ⟨"SET_RAM_X_ADDRESS_COUNTER", 8, 0x4E, 0xFF⟩
  | .setRamYAddressCounter => ⟨"SET_RAM_Y_ADDRESS_COUNTER", 8, 0x4F, 0xFF⟩
  | .writeRam => ⟨"WRITE_RAM", 8, 0x24, 0xFF⟩
  | .displayUpdateControl2 => ⟨"DISPLAY_UPDATE_CONTROL_2", 8, 0x22, 0xFF⟩
  | .masterActivation => ⟨"MASTER_ACTIVATION", 8, 0x20, 0xFF⟩
  | .terminateFrameReadWrite => ⟨"TERMINATE_FRAME_READ_WRITE", 8, 0xFF, 0xFF⟩
  | .deepSleepMode => ⟨"DEEP_SLEEP_MODE", 8, 0x10, 0xFF⟩

/-- The bits of an encoding as a number, with its length. -/
def Encoding.bits : Encoding → Nat × Nat
  | .opWord w => (32, w.toNat)
  | .busCode b => (8, b.toNat)

/-- An encoding fits a row of the table. -/
def TableRow.fits (r : TableRow) (e : Encoding) : Bool :=
  e.bits.1 == r.nbits && e.bits.2 &&& r.mask == r.pattern

end Sys2Proof
end

