-- ==== Sys2Proof/Machine/State.lean ====
section
/-! DEFINITION. The state of the block and of what it is driven by, as plain data (spec/10_state.md), the
reasons a step can stop, and the state after reset (R42). -/

namespace Sys2Proof.Machine

/-- `phase` (R21). -/
inductive Phase where
  | idle
  | run
  | fault
deriving DecidableEq, Repr

/-- The level of a pin (R37). -/
inductive Level where
  | low
  | high
deriving DecidableEq, Repr

/-- `STATUS.ERR` (R260). Codes 6-15 are never produced (U22) and have no constructor. -/
inductive ErrCode where
  | ok
  | illegalOp
  | notReady
  | invalidArg
  | transportFailure
  | faulted
deriving DecidableEq, Repr

/-- The `STATUS` flags (R24). The register's reserved bits read 0 and need no storage (R28). -/
structure Status where
  busy : Bool
  fault : Bool
  init : Bool
  asleep : Bool
  mode : LutMode
  rej : Bool
  err : ErrCode
deriving DecidableEq, Repr

/-- The argument latches `L_*` (R29). -/
structure Latches where
  op : OpCode
  mode : LutMode
  fill : Byte
  x : Half
  y : Half
  w : Half
  h : Half
  base : Word
deriving DecidableEq, Repr

/-- The window latches `(WXS, WYS, WXE, WYE)`, in pixels (R32). -/
structure Window where
  xs : Nat
  ys : Nat
  xe : Nat
  ye : Nat
deriving DecidableEq, Repr

/-- The pointer latches `(PX, PY)`, in pixels (R32). -/
structure Pointer where
  px : Nat
  py : Nat
deriving DecidableEq, Repr

/-- The counter of a running stream (R33): `n_left` of CLEAR, or `(r, g)` of DRAW. -/
inductive StreamCounter where
  | fill (nLeft : Nat)
  | pack (r g : Nat)
deriving DecidableEq, Repr

/-- One event of the trace `T` (R40); the response is the environment's. -/
inductive Event where
  | pin (lvl : Level)
  | wait (ms : Nat)
  | cmd (b : Byte) (resp : Resp)
  | data (b : Byte) (resp : Resp)
  | busy (resp : BusyResp)
deriving DecidableEq, Repr

/-- What the host does next (R56, R100, R101; log entries 1, 12 and 13). -/
inductive HostAction where
  /-- WREG: a register write of `bits` bits. -/
  | write (offset : BitVec 8) (bits : Nat) (value : Word)
  /-- RREG: a register read of `bits` bits. -/
  | read (offset : BitVec 8) (bits : Nat)
  /-- WAIT (R101): read STATUS until BUSY = 0. -/
  | wait
  /-- Write consecutive bytes of bitmap memory. -/
  | memWrite (addr : Word) (bytes : List Byte)
  /-- Read one byte of bitmap memory. -/
  | memRead (addr : Word)
  /-- Drive the block's reset input (R290). A block reset is an assertion and a release. -/
  | resetInput (asserted : Bool)
  /-- Do nothing while the block performs its next event. -/
  | letBlockRun
deriving DecidableEq, Repr

/-- Bitmap memory: address and byte pairs, addresses strictly rising, no byte listed that an unlisted
address reads as (`Memory.wf`, Ops.lean). -/
abbrev Memory := List Host.Cell

/-- The whole state. INVENTORY.md lists every field with its rule and its reset value. -/
structure State where
  inst : BlockInstance
  phase : Phase
  sp : Nat
  status : Status
  origin : Word
  bmpsize : Word
  bmpbase : Word
  latches : Latches
  window : Window
  pointer : Pointer
  payload : List Byte
  stream : Option StreamCounter
  timer : Option Nat
  rst : Level
  /-- The level of the block's reset input: asserted or not (R290). -/
  resetInput : Bool
  trace : List Event
  bitmap : Memory
  touched : List Nat
  host : List HostAction
  hostData : List Word
  busScript : List Resp
  busyScript : List BusyResp
  draws : Nat
deriving DecidableEq, Repr

/-- The parameters of the instance (R8). -/
abbrev State.params (s : State) : Params := s.inst.params

/-- Why the machine stops with a fault. Every error of R260 is a next state; these are not among them. -/
inductive Fault where
  /-- Raised by a host access to bitmap memory, or by the DRAW stream in a state no run reaches, at an
  address that is not below BMP_MEM_BYTES (R50, R52). Safe: the model stops. Log entry 14. -/
  | bitmapAddress
  /-- Raised by the sequencer in RUN when the step pointer, payload and stream counter do not agree, which
  no run from reset reaches (Safety.lean, `Inv`). Safe: the model stops. Log entry 17. -/
  | sequencerLost
deriving DecidableEq, Repr

/-- Why the machine refuses. -/
inductive Refusal where
  /-- An instruction without a meaning. Raised by no arm of `exec`: every instruction has one. Safe. -/
  | notModelled (mnemonic : String)
  /-- A host register access that is not a 32-bit one at a multiple of 4: "The model refuses it" (R56, U1).
  Raised by the host port. Safe. -/
  | hostAccess
deriving DecidableEq, Repr

/-- The `STATUS` flags after reset (R42). -/
def Status.reset : Status where
  busy := false
  fault := false
  init := false
  asleep := false
  mode := .fullUpdate
  rej := false
  err := .ok

/-- The latches after reset: the spec gives no value, DESIGN CHOICE (log entry 5). -/
def Latches.reset : Latches where
  op := .init
  mode := .fullUpdate
  fill := 0#8
  x := 0#16
  y := 0#16
  w := 0#16
  h := 0#16
  base := 0#32

/-- The machine right after reset (R42), its reset input released, of this hardware's instance, with nothing in bitmap memory and no
host action or environment response given. -/
def State.reset : State where
  inst := BlockInstance.default
  phase := .idle
  sp := 0
  status := Status.reset
  origin := 0#32
  bmpsize := 0#32
  bmpbase := 0#32
  latches := Latches.reset
  window := ⟨0, 0, 0, 0⟩
  pointer := ⟨0, 0⟩
  payload := []
  stream := none
  timer := none
  rst := .high
  resetInput := false
  trace := []
  bitmap := []
  touched := []
  host := []
  hostData := []
  busScript := []
  busyScript := []
  draws := 0

end Sys2Proof.Machine
end

