-- ==== Sys2Proof/Machine/Flags.lean ====
section
/-! DEFINITION. The `STATUS` word (R24) and every way a flag changes: acceptance (R232), the end of an op
(R233), the end of SelectLut, INIT and SLEEP (R136, R130, R215), and REJ (R230). The block has no arithmetic
flags (R41). -/

namespace Sys2Proof.Machine

/-- The code of a result (R260). -/
def ErrCode.code : ErrCode → BitVec 4
  | .ok => 0#4
  | .illegalOp => 1#4
  | .notReady => 2#4
  | .invalidArg => 3#4
  | .transportFailure => 4#4
  | .faulted => 5#4

/-- The `MODE` bit (R24, R30). -/
def modeFlag : LutMode → BitVec 1
  | .fullUpdate => 0#1
  | .partialUpdate => 1#1

/-- What a read of `STATUS` returns (R24): ERR in [11:8], REJ, MODE, ASLEEP, INIT, FAULT, BUSY in [5:0], the
rest 0. -/
def statusWord (t : Status) : Word :=
  (BitVec.ofBool t.busy).setWidth 32 ||| (BitVec.ofBool t.fault).setWidth 32 <<< 1
    ||| (BitVec.ofBool t.init).setWidth 32 <<< 2 ||| (BitVec.ofBool t.asleep).setWidth 32 <<< 3
    ||| (modeFlag t.mode).setWidth 32 <<< 4 ||| (BitVec.ofBool t.rej).setWidth 32 <<< 5
    ||| t.err.code.setWidth 32 <<< 8

/-- The block is ready: `STATUS.INIT = 1` and `STATUS.ASLEEP = 0` (R231). -/
def Status.ready (t : Status) : Bool := t.init && !t.asleep

/-- Flags at acceptance (R232); an accepted INIT clears INIT and ASLEEP. -/
def Status.accept (op : OpCode) (t : Status) : Status :=
  match op with
  | .init => { t with busy := true, init := false, asleep := false }
  | _ => { t with busy := true }

/-- Flags at the end of an op (R233): ERR takes the code, FAULT is set for code 4, BUSY drops. -/
def Status.ended (code : ErrCode) (t : Status) : Status :=
  { t with err := code, fault := t.fault || code == .transportFailure, busy := false }

/-- The flags an op itself writes when its step list has finished: SelectLut's MODE (R136), INIT (R130),
ASLEEP and INIT of SLEEP (R215). -/
def Status.opDone (l : Latches) (t : Status) : Status :=
  match l.op with
  | .init => { t with mode := l.mode, init := true }
  | .setlut => { t with mode := l.mode }
  | .sleep => { t with asleep := true, init := false }
  | .clear => t
  | .draw => t
  | .refresh => t

/-- `REJ` (R230). -/
def Status.setRej (b : Bool) (t : Status) : Status := { t with rej := b }

end Sys2Proof.Machine
end

