-- ==== Sys2Proof/Machine/Operands.lean ====
section
/-! DEFINITION. Every operand the block computes: byte narrowing (R11, R12), the fields of the host registers
(R25, R26), the bitmap address (R51), the DRAW rectangle (R166) and its check (R167), and the windows of
CLEAR and DRAW (R170). All arithmetic is exact, on naturals (R12). -/

namespace Sys2Proof.Machine

/-- `lo8(v) = v[7:0]` (R11). -/
def lo8 (v : Nat) : Byte := BitVec.ofNat 8 v

/-- `hi8(v) = v[15:8]` (R11). -/
def hi8 (v : Nat) : Byte := BitVec.ofNat 8 (v / 256)

/-- `x >> 3`: the byte column of a pixel column (R169). -/
def byteColumn (x : Nat) : Nat := x / 8

/-- `x & ~7`: the pixel column rounded down to a multiple of 8 (R12, R115). -/
def alignDown8 (x : Nat) : Nat := x / 8 * 8

/-- `ORIGIN.OX`, `BMPSIZE.BW`: bits [15:0] (R25, R26). -/
def lowHalf (r : Word) : Half := r.extractLsb' 0 16

/-- `ORIGIN.OY`, `BMPSIZE.BH`: bits [31:16] (R25, R26). -/
def highHalf (r : Word) : Half := r.extractLsb' 16 16

/-- `PWB = PW / 8` (R10). -/
def rowBytes (p : Params) : Nat := p.panelWidth / 8

/-- `FRAME_BYTES = PWB × PH` (R10). -/
def frameBytes (p : Params) : Nat := rowBytes p * p.panelHeight

/-- `pix_addr(i, j) = L_BASE + j × L_W + i` (R51). -/
def pixAddr (l : Latches) (i j : Nat) : Nat := l.base.toNat + j * l.w.toNat + i

/-- `DrawArgsValid` (R167). -/
def drawArgsValid (p : Params) (l : Latches) : Bool :=
  1 ≤ l.w.toNat && 1 ≤ l.h.toNat
    && decide (l.x.toNat < p.panelWidth) && decide (l.y.toNat < p.panelHeight)
    && decide (l.base.toNat + l.w.toNat * l.h.toNat ≤ p.bmpMemBytes)

/-- The DRAW destination rectangle (R166): `xs = xa = L_X & ~7`, and the right and bottom edges clamped to
the panel's last column and row. -/
def drawRect (p : Params) (l : Latches) : Window where
  xs := alignDown8 l.x.toNat
  ys := l.y.toNat
  xe := min (alignDown8 l.x.toNat + l.w.toNat - 1) (p.panelWidth - 1)
  ye := min (l.y.toNat + l.h.toNat - 1) (p.panelHeight - 1)

/-- `nb`: bytes per window row (R166). -/
def Window.nb (w : Window) : Nat := byteColumn w.xe - byteColumn w.xs + 1

/-- `nr`: window rows (R166). -/
def Window.nr (w : Window) : Nat := w.ye - w.ys + 1

/-- The window of CLEAR: the full panel (R170). -/
def fullWindow (p : Params) : Window := ⟨0, 0, p.panelWidth - 1, p.panelHeight - 1⟩

/-- The window the running op programs: the full panel for CLEAR (R170), the destination rectangle for DRAW
(R190). No other op programs one. -/
def opWindow (p : Params) (l : Latches) : Window :=
  match l.op with
  | .clear => fullWindow p
  | _ => drawRect p l

/-- The LUT of a mode (R136). -/
def lutOf (p : Params) : LutMode → List Byte
  | .fullUpdate => p.lutFull
  | .partialUpdate => p.lutPartial

/-- A 16-bit value on the bus: low byte first (R53). -/
def leBytes (v : Nat) : List Byte := [lo8 v, hi8 v]

end Sys2Proof.Machine
end

