-- ==== Sys2Proof/Machine/Sequence.lean ====
section
/-! DEFINITION. The fixed step list of each op (R21, R130, R135, R180, R190, R195, R215), one entry per
event-producing step. The step pointer `sp` indexes it; the three loop steps (R36) are `poll`, `fillByte` and
`packByte`. DEDUCED (log entry 10): the spec leaves the encoding of the steps open (D39) and fixes the events. -/

namespace Sys2Proof.Machine

/-- One event-producing step. -/
inductive MicroStep where
  /-- `SetPin(RST, lvl)` (R131). -/
  | setPin (lvl : Level)
  /-- `Delay(ms)` of the reset pulse (R131). -/
  | delay (ms : Nat)
  /-- The command byte of a bus transaction (R86). -/
  | bus (c : CmdName)
  /-- The next data byte of the running bus transaction (R86). -/
  | dataByte
  /-- The loop step of WaitIdle (R210). -/
  | poll
  /-- The loop step of FillStream (R182). -/
  | fillByte
  /-- The loop step of PackStream (R191). -/
  | packByte
deriving DecidableEq, Repr

/-- The number of data bytes a command carries itself (R86). WRITE_RAM has none of its own: the frame stream
is a loop step (R181). -/
def payloadLength : CmdName → Nat
  | .driverOutputControl => 3
  | .boosterSoftStartControl => 3
  | .writeVcomRegister => 1
  | .setDummyLinePeriod => 1
  | .setGateTime => 1
  | .dataEntryModeSetting => 1
  | .writeLutRegister => Config.lutLen
  | .setRamXAddressStartEndPosition => 2
  | .setRamYAddressStartEndPosition => 4
  | .setRamXAddressCounter => 1
  | .setRamYAddressCounter => 2
  | .writeRam => 0
  | .displayUpdateControl2 => 1
  | .masterActivation => 0
  | .terminateFrameReadWrite => 0
  | .deepSleepMode => 0

/-- A format B transaction: the command byte, then its data bytes (R86). -/
def transaction (c : CmdName) : List MicroStep :=
  .bus c :: List.replicate (payloadLength c) .dataByte

/-- WaitIdle: one loop step in POLL mode (R210), nothing in REFERENCE_NOOP mode (R211). -/
def waitIdleSteps (p : Params) : List MicroStep :=
  match p.busyWaitMode with
  | .poll => [.poll]
  | .referenceNoop => []

/-- PhysicalReset (R131). -/
def physicalResetSteps (p : Params) : List MicroStep :=
  [.setPin .low, .delay p.resetLowMs, .setPin .high, .delay p.resetHighMs]

/-- SetMemoryWindow (R160): X before Y. -/
def setMemoryWindowSteps : List MicroStep :=
  transaction .setRamXAddressStartEndPosition ++ transaction .setRamYAddressStartEndPosition

/-- SetAddressPointer (R163): X before Y, then WaitIdle. -/
def setAddressPointerSteps (p : Params) : List MicroStep :=
  transaction .setRamXAddressCounter ++ transaction .setRamYAddressCounter ++ waitIdleSteps p

/-- What precedes every data stream (R168): window, pointer, WRITE_RAM. -/
def streamPreambleSteps (p : Params) : List MicroStep :=
  setMemoryWindowSteps ++ setAddressPointerSteps p ++ transaction .writeRam

/-- The step list of an op. -/
def stepList (p : Params) : OpCode → List MicroStep
  -- R130
  | .init =>
    physicalResetSteps p ++ transaction .driverOutputControl ++ transaction .boosterSoftStartControl
      ++ transaction .writeVcomRegister ++ transaction .setDummyLinePeriod ++ transaction .setGateTime
      ++ transaction .dataEntryModeSetting ++ transaction .writeLutRegister
  -- R135
  | .setlut => transaction .writeLutRegister
  -- R180
  | .clear => streamPreambleSteps p ++ [.fillByte]
  -- R190
  | .draw => streamPreambleSteps p ++ [.packByte]
  -- R195
  | .refresh =>
    transaction .displayUpdateControl2 ++ transaction .masterActivation
      ++ transaction .terminateFrameReadWrite ++ waitIdleSteps p
  -- R215
  | .sleep => transaction .deepSleepMode ++ waitIdleSteps p

/-- The step list of the running op. -/
def State.steps (s : State) : List MicroStep := stepList s.params s.latches.op

end Sys2Proof.Machine
end

