-- ==== Sys2Proof/Machine/Ops.lean ====
section
/-! DEFINITION. The named operations the meanings are written over: bitmap memory (R50-R52), the environment's
draws (R39), the trace (R40), ending an op and raising an error (R233, R262, R268), block reset (R290), bus
events (R14), and the admission of an op (R230-R232). -/

namespace Sys2Proof.Machine

/-! ## Bitmap memory -/

/-- What a bitmap byte that nothing has written reads as: the spec gives bitmap memory no initial contents.
DESIGN CHOICE (log entry 7). -/
def unlistedByte : Byte := 0x00#8

/-- The byte at an address. -/
def Memory.read : Memory → Nat → Byte
  | [], _ => unlistedByte
  | (k, v) :: m, a => if k = a then v else Memory.read m a

/-- The entry of one byte: none where it equals what an unlisted address reads as. -/
def Memory.entry (a : Nat) (v : Byte) : Memory :=
  if v = unlistedByte then [] else [(a, v)]

/-- Write one byte, keeping the canonical form. -/
def Memory.write : Memory → Nat → Byte → Memory
  | [], a, v => Memory.entry a v
  | (k, w) :: m, a, v =>
    if k < a then (k, w) :: Memory.write m a v
    else if k = a then Memory.entry a v ++ m
    else Memory.entry a v ++ (k, w) :: m

/-- Write consecutive bytes from an address upwards. -/
def Memory.writeBytes : Memory → Nat → List Byte → Memory
  | m, _, [] => m
  | m, a, v :: vs => Memory.writeBytes (Memory.write m a v) (a + 1) vs

/-- Every entry lies above `lo` and the addresses rise strictly. -/
def Memory.risingFrom : Option Nat → Memory → Bool
  | _, [] => true
  | lo, (k, v) :: m =>
    (match lo with | none => true | some a => decide (a < k))
      && decide (v ≠ unlistedByte) && Memory.risingFrom (some k) m

/-- The canonical form: addresses strictly rising, no entry equal to what an unlisted address reads as. -/
def Memory.wf (m : Memory) : Bool := Memory.risingFrom none m

/-- Add an address to a strictly rising list of addresses. -/
def insertAddr : List Nat → Nat → List Nat
  | [], a => [a]
  | k :: t, a => if k < a then k :: insertAddr t a else if k = a then k :: t else a :: k :: t

/-- Add `n` consecutive addresses. -/
def insertAddrs : List Nat → Nat → Nat → List Nat
  | t, _, 0 => t
  | t, a, n + 1 => insertAddrs (insertAddr t a) (a + 1) n

/-! ## The environment's draws (R39) -/

/-- The response to the next command or data byte: the script's head, or else a free value (U25). -/
def State.nextResp (s : State) : Resp :=
  match s.busScript with
  | r :: _ => r
  | [] => Config.freeResp s.draws

/-- The state once that response has been taken. -/
def State.takeResp (s : State) : State :=
  match s.busScript with
  | _ :: rs => { s with busScript := rs }
  | [] => { s with draws := s.draws + 1 }

/-- The next reading of the busy line: the script's head, or else a free value (U25). -/
def State.nextBusy (s : State) : BusyResp :=
  match s.busyScript with
  | r :: _ => r
  | [] => Config.freeBusy s.draws

/-- The state once that reading has been taken. -/
def State.takeBusy (s : State) : State :=
  match s.busyScript with
  | _ :: rs => { s with busyScript := rs }
  | [] => { s with draws := s.draws + 1 }

/-! ## The trace -/

/-- Append one event to `T` (R14, R40). -/
def State.emit (e : Event) (s : State) : State := { s with trace := s.trace ++ [e] }

/-! ## Ending an op, and errors -/

/-- The latches of R29 with no value a rule fixes (U16). -/
def freeLatches (n : Nat) : Latches where
  op := Config.freeOp n
  mode := Config.freeMode n
  fill := Config.freeFill n
  x := Config.freeHalf 0 n
  y := Config.freeHalf 1 n
  w := Config.freeHalf 2 n
  h := Config.freeHalf 3 n
  base := Config.freeBase n

/-- The window latches with no value a rule fixes (R32, U16). -/
def freeWindow (n : Nat) : Window :=
  ⟨Config.freeCoord 0 n, Config.freeCoord 1 n, Config.freeCoord 2 n, Config.freeCoord 3 n⟩

/-- The pointer latches with no value a rule fixes (R32, U16). -/
def freePointer (n : Nat) : Pointer := ⟨Config.freeCoord 4 n, Config.freeCoord 5 n⟩

/-- Outside an op the latches, the window and the pointer are unspecified and the stream counters and the
timer do not exist (R32-R34, U16): they take free values (log entry 6). -/
def State.releaseLatches (s : State) : State :=
  { s with
    latches := freeLatches s.draws
    window := freeWindow s.draws
    pointer := freePointer s.draws
    payload := []
    stream := none
    timer := none
    draws := s.draws + 1 }

/-- The phase after `End(code)` (R233). -/
def phaseAfterEnd (code : ErrCode) (ph : Phase) : Phase :=
  if code = .transportFailure then .fault else if ph = .run then .idle else ph

/-- `End(code)` (R233). -/
def State.endWith (code : ErrCode) (s : State) : State :=
  { s with
    status := s.status.ended code
    phase := phaseAfterEnd code s.phase
    sp := 0 }

/-- `End(code)` of an op whose arguments had been latched: after it the latches hold no specified value. -/
def State.endOp (code : ErrCode) (s : State) : State := (s.endWith code).releaseLatches

/-- `raise TransportFailure` (R262): the whole entry of an error (R268). No register holds which event failed,
there is no handler and no return (R269); only a block reset clears the fault. -/
def State.raiseTransportFailure (s : State) : State := s.endOp .transportFailure

/-- Block reset (R290, R291): every piece of the block's state takes its reset value and `T` starts empty; the
instance with its LUT ROMs stays (R42), and so does what is not the block's: bitmap memory, what the host has
written and read, the level of the reset input, and the environment's scripts and draws (log entry 12). -/
def State.blockReset (s : State) : State :=
  { State.reset with
    inst := s.inst
    resetInput := s.resetInput
    bitmap := s.bitmap
    touched := s.touched
    host := s.host
    hostData := s.hostData
    busScript := s.busScript
    busyScript := s.busyScript
    draws := s.draws }

/-- The host drives the reset input (R290): asserting it resets the block at once (R291), releasing it leaves the
state as it is, which is the reset state while the input was asserted (`holdReset`). -/
def State.driveReset (asserted : Bool) (s : State) : State :=
  if asserted = true then { s.blockReset with resetInput := true } else { s with resetInput := false }

/-- "While the block's reset input is asserted" (R290) every piece of the block's state keeps its value of R42. -/
def State.holdReset (s : State) : State := if s.resetInput = true then s.blockReset else s

/-! ## Steps of a running op -/

/-- The op's step list has finished: its own flags, then `End(OK)` (R233). -/
def State.complete (s : State) : State :=
  State.endOp .ok { s with status := s.status.opDone s.latches }

/-- A step has been performed: `sp` advances by one, and the op ends when that was its last step (R21, R233). -/
def State.advance (s : State) : State :=
  if s.sp + 1 < s.steps.length then { s with sp := s.sp + 1 } else s.complete

/-- A `Cmd` or `Data` event: the response is drawn and the event appended; on `ok` the op goes on with `next`,
on `err` it raises TransportFailure and nothing else is performed (R14, R15, R262). -/
def State.busEvent (e : Resp → Event) (next : State → State) (s : State) : State :=
  match s.nextResp with
  | .ok => next (s.takeResp.emit (e .ok))
  | .err => (s.takeResp.emit (e .err)).raiseTransportFailure

/-- `BusCmd(b)` (R14). -/
def State.busCmd (b : Byte) (next : State → State) (s : State) : State :=
  s.busEvent (Event.cmd b) next

/-- `BusData(b)` (R14). -/
def State.busData (b : Byte) (next : State → State) (s : State) : State :=
  s.busEvent (Event.data b) next

/-- Open a format B transaction (R86): send the command byte of `c` and leave `bytes` as the data bytes the
next steps send (log entry 11). -/
def State.openTransaction (c : CmdName) (bytes : List Byte) (s : State) : State :=
  s.busCmd (s.params.cmd.code c) (fun t => State.advance { t with payload := bytes }) 

/-- The stream that WRITE_RAM opens: FRAME_BYTES fill bytes for CLEAR (R180, R182), the packed window for DRAW
(R190, R191). No other op sends WRITE_RAM. -/
def openStream (p : Params) (l : Latches) : Option StreamCounter :=
  match l.op with
  | .clear => some (.fill (frameBytes p))
  | .draw => some (.pack 0 0)
  | .init => none
  | .setlut => none
  | .refresh => none
  | .sleep => none

/-- The latch assignments that open SetMemoryWindow (R160) and SetAddressPointer (R163), made before the first
command of the sub-sequence. The pointer is the window's start (R168). -/
def State.enterSubsequence (c : CmdName) (s : State) : State :=
  match c with
  | .setRamXAddressStartEndPosition => { s with window := opWindow s.params s.latches }
  | .setRamXAddressCounter =>
    { s with pointer := ⟨(opWindow s.params s.latches).xs, (opWindow s.params s.latches).ys⟩ }
  | _ => s

/-! ## Admission (R230-R232) -/

/-- `Latch(w)` (R29). -/
def State.latch (op : OpCode) (mode : LutMode) (fill : Byte) (s : State) : State :=
  { s with latches :=
    { op := op
      mode := mode
      fill := fill
      x := lowHalf s.origin
      y := highHalf s.origin
      w := lowHalf s.bmpsize
      h := highHalf s.bmpsize
      base := s.bmpbase } }

/-- The bitmap bytes whose reads an accepted op may not rely on from its start: none on an ordered platform
(R60), every byte the host has written on an unordered one (log entry 9). -/
def touchedAtAccept (p : Params) (t : List Nat) : List Nat :=
  match p.platformOrdering with
  | .ordered => []
  | .unordered => t

/-- `Accept(op)` (R232). -/
def State.accept (op : OpCode) (s : State) : State :=
  { s with
    status := s.status.accept op
    phase := .run
    sp := 0
    touched := touchedAtAccept s.params s.touched }

/-- `Admit(w)` of a legal word (R231); the order of the checks is the priority of R267. -/
def State.admission (op : OpCode) (mode : LutMode) (fill : Byte) (s : State) : State :=
  if s.status.fault = true then s.endWith .faulted
  else if op ≠ .init ∧ s.status.ready = false then s.endWith .notReady
  else if op = .draw ∧ drawArgsValid s.params (s.latch op mode fill).latches = false then
    (s.latch op mode fill).endOp .invalidArg
  else (s.latch op mode fill).accept op

/-- `REJ <- 1`, and nothing else (R230). -/
def State.reject (s : State) : State := { s with status := s.status.setRej true }

/-- `REJ <- 0` (R230). -/
def State.clearRej (s : State) : State := { s with status := s.status.setRej false }

/-- `OnOpWrite(w)` of a word that decodes to an op (R230). -/
def State.onOpWrite (op : OpCode) (mode : LutMode) (fill : Byte) (s : State) : State :=
  if s.phase = .run then s.reject else s.clearRej.admission op mode fill

/-- `OnOpWrite(w)` of a word that decodes to Illegal (R230, R231, R261): FAULTED comes before ILLEGAL_OP. -/
def State.onIllegalWrite (s : State) : State :=
  if s.phase = .run then s.reject
  else if s.status.fault = true then s.clearRej.endWith .faulted
  else s.clearRej.endWith .illegalOp

end Sys2Proof.Machine
end

