-- ==== Sys2Proof/Machine/AddressCommands.lean ====
section
/-! DEFINITION. The bus commands of the address unit (spec/42_addressing.md), computed from the window and
pointer latches. -/

namespace Sys2Proof.Machine

/-- SET_RAM_X_ADDRESS_START_END_POSITION (R161): byte columns of the window's edges (R169). -/
def execSetRamXAddressStartEndPosition (s : State) : Host.Outcome State Fault Refusal :=
  .next (s.openTransaction .setRamXAddressStartEndPosition
    [lo8 (byteColumn s.window.xs), lo8 (byteColumn s.window.xe)])

/-- SET_RAM_Y_ADDRESS_START_END_POSITION (R162). -/
def execSetRamYAddressStartEndPosition (s : State) : Host.Outcome State Fault Refusal :=
  .next (s.openTransaction .setRamYAddressStartEndPosition (leBytes s.window.ys ++ leBytes s.window.ye))

/-- SET_RAM_X_ADDRESS_COUNTER (R164). -/
def execSetRamXAddressCounter (s : State) : Host.Outcome State Fault Refusal :=
  .next (s.openTransaction .setRamXAddressCounter [lo8 (byteColumn s.pointer.px)])

/-- SET_RAM_Y_ADDRESS_COUNTER (R165). -/
def execSetRamYAddressCounter (s : State) : Host.Outcome State Fault Refusal :=
  .next (s.openTransaction .setRamYAddressCounter (leBytes s.pointer.py))

end Sys2Proof.Machine
end

