-- ==== Sys2Proof/Machine/HostOps.lean ====
section
/-! DEFINITION. The six host operations: the effect of the `OP` write that starts each (R230-R232). What an
accepted op then does is its step list (Sequence.lean), one event per step (Block.lean). -/

namespace Sys2Proof.Machine

/-- INIT (R130). -/
def execInit (mode : LutMode) (s : State) : Host.Outcome State Fault Refusal :=
  .next (s.onOpWrite .init mode 0#8)

/-- SETLUT (R135). -/
def execSetlut (mode : LutMode) (s : State) : Host.Outcome State Fault Refusal :=
  .next (s.onOpWrite .setlut mode 0#8)

/-- CLEAR (R180). -/
def execClear (fill : Byte) (s : State) : Host.Outcome State Fault Refusal :=
  .next (s.onOpWrite .clear .fullUpdate fill)

/-- DRAW (R190). -/
def execDraw (s : State) : Host.Outcome State Fault Refusal :=
  .next (s.onOpWrite .draw .fullUpdate 0#8)

/-- REFRESH (R195). -/
def execRefresh (s : State) : Host.Outcome State Fault Refusal :=
  .next (s.onOpWrite .refresh .fullUpdate 0#8)

/-- SLEEP (R215). -/
def execSleep (s : State) : Host.Outcome State Fault Refusal :=
  .next (s.onOpWrite .sleep .fullUpdate 0#8)

end Sys2Proof.Machine
end

