-- ==== Sys2Proof/Machine/InitCommands.lean ====
section
/-! DEFINITION. The bus commands of the init sequence and of LUT selection (spec/41_init_lut.md). Each opens
its transaction: the command byte is sent, and its data bytes follow, one per step (R86). -/

namespace Sys2Proof.Machine

/-- DRIVER_OUTPUT_CONTROL (R132): PH - 1, little-endian, and the gate scan direction. -/
def execDriverOutputControl (s : State) : Host.Outcome State Fault Refusal :=
  .next (s.openTransaction .driverOutputControl
    (leBytes (s.params.panelHeight - 1) ++ [Config.gateScanDir]))

/-- BOOSTER_SOFT_START_CONTROL (R133). -/
def execBoosterSoftStartControl (s : State) : Host.Outcome State Fault Refusal :=
  .next (s.openTransaction .boosterSoftStartControl Config.booster)

/-- WRITE_VCOM_REGISTER (R134). -/
def execWriteVcomRegister (s : State) : Host.Outcome State Fault Refusal :=
  .next (s.openTransaction .writeVcomRegister [Config.vcom])

/-- SET_DUMMY_LINE_PERIOD (R137). -/
def execSetDummyLinePeriod (s : State) : Host.Outcome State Fault Refusal :=
  .next (s.openTransaction .setDummyLinePeriod [Config.dummyLine])

/-- SET_GATE_TIME (R138). -/
def execSetGateTime (s : State) : Host.Outcome State Fault Refusal :=
  .next (s.openTransaction .setGateTime [Config.gateTime])

/-- DATA_ENTRY_MODE_SETTING (R139). -/
def execDataEntryModeSetting (s : State) : Host.Outcome State Fault Refusal :=
  .next (s.openTransaction .dataEntryModeSetting [Config.dataEntry])

/-- WRITE_LUT_REGISTER (R136): the whole table of the op's mode, in index order. `STATUS.MODE` follows the
30th data byte (`Status.opDone`). -/
def execWriteLutRegister (s : State) : Host.Outcome State Fault Refusal :=
  .next (s.openTransaction .writeLutRegister (lutOf s.params s.latches.mode))

end Sys2Proof.Machine
end

