-- ==== Sys2Proof/Machine/TransferCommands.lean ====
section
/-! DEFINITION. The bus commands of frame transfer, refresh and sleep (spec/43_frame_transfer.md,
spec/44_busy_sleep.md). -/

namespace Sys2Proof.Machine

/-- WRITE_RAM (R181): the command byte, after which the op's frame stream starts (R182, R191). -/
def execWriteRam (s : State) : Host.Outcome State Fault Refusal :=
  .next (s.busCmd (s.params.cmd.code .writeRam)
    (fun t => State.advance { t with payload := [], stream := openStream t.params t.latches }))

/-- DISPLAY_UPDATE_CONTROL_2 (R196). -/
def execDisplayUpdateControl2 (s : State) : Host.Outcome State Fault Refusal :=
  .next (s.openTransaction .displayUpdateControl2 [Config.updateCtrl])

/-- MASTER_ACTIVATION (R197): no data byte. -/
def execMasterActivation (s : State) : Host.Outcome State Fault Refusal :=
  .next (s.openTransaction .masterActivation [])

/-- TERMINATE_FRAME_READ_WRITE (R198): no data byte. -/
def execTerminateFrameReadWrite (s : State) : Host.Outcome State Fault Refusal :=
  .next (s.openTransaction .terminateFrameReadWrite [])

/-- DEEP_SLEEP_MODE (R216): no data byte. -/
def execDeepSleepMode (s : State) : Host.Outcome State Fault Refusal :=
  .next (s.openTransaction .deepSleepMode [])

end Sys2Proof.Machine
end

