-- ==== Sys2Proof/Machine/Dispatch.lean ====
section
/-! DEFINITION. The meaning of every instruction, one arm per constructor of `Instr`. -/

namespace Sys2Proof.Machine

/-- What each instruction does. -/
def exec (i : Instr) (s : State) : Host.Outcome State Fault Refusal :=
  match i with
  | .init mode => Sys2Proof.Machine.execInit mode s
  | .setlut mode => Sys2Proof.Machine.execSetlut mode s
  | .clear fill => Sys2Proof.Machine.execClear fill s
  | .draw => Sys2Proof.Machine.execDraw s
  | .refresh => Sys2Proof.Machine.execRefresh s
  | .sleep => Sys2Proof.Machine.execSleep s
  | .driverOutputControl => Sys2Proof.Machine.execDriverOutputControl s
  | .boosterSoftStartControl => Sys2Proof.Machine.execBoosterSoftStartControl s
  | .writeVcomRegister => Sys2Proof.Machine.execWriteVcomRegister s
  | .setDummyLinePeriod => Sys2Proof.Machine.execSetDummyLinePeriod s
  | .setGateTime => Sys2Proof.Machine.execSetGateTime s
  | .dataEntryModeSetting => Sys2Proof.Machine.execDataEntryModeSetting s
  | .writeLutRegister => Sys2Proof.Machine.execWriteLutRegister s
  | .setRamXAddressStartEndPosition => Sys2Proof.Machine.execSetRamXAddressStartEndPosition s
  | .setRamYAddressStartEndPosition => Sys2Proof.Machine.execSetRamYAddressStartEndPosition s
  | .setRamXAddressCounter => Sys2Proof.Machine.execSetRamXAddressCounter s
  | .setRamYAddressCounter => Sys2Proof.Machine.execSetRamYAddressCounter s
  | .writeRam => Sys2Proof.Machine.execWriteRam s
  | .displayUpdateControl2 => Sys2Proof.Machine.execDisplayUpdateControl2 s
  | .masterActivation => Sys2Proof.Machine.execMasterActivation s
  | .terminateFrameReadWrite => Sys2Proof.Machine.execTerminateFrameReadWrite s
  | .deepSleepMode => Sys2Proof.Machine.execDeepSleepMode s

end Sys2Proof.Machine
end

