-- ==== Sys2Proof/Machine/Packer.lean ====
section
/-! DEFINITION. The bit packer (spec/40_bit_packer.md): PackByte (R110) over MemRead (R52), with the races of R64. -/

namespace Sys2Proof.Machine

/-- Whether an action is inside the defined interface: an aligned 32-bit register access (R56, U1), an address of
bitmap memory that exists (R50). -/
def HostAction.allowed (p : Params) : HostAction → Bool
  | .write offset bits _ => hostAccessOk offset bits
  | .read offset bits => hostAccessOk offset bits
  | .memWrite addr bytes => decide (addr.toNat + bytes.length ≤ p.bmpMemBytes)
  | .memRead addr => decide (addr.toNat < p.bmpMemBytes)
  | .wait => true
  | .resetInput _ => true
  | .letBlockRun => true

/-- The bytes of a DRAW's stream after PackByte(r, g) (R191). -/
def bytesLeft (w : Window) (r g : Nat) : Nat := w.nb * w.nr - (r * w.nb + g + 1)

/-- The events an op at its packing step still performs after this one, when `left` bytes follow in its stream: none
once a response is `err` (R262). The responses are those the steps will draw: `script`, then the free values, of which
each byte's pixels use eight (`packByteStep`). -/
def eventsAfter : (left : Nat) → (script : List Resp) → (draws : Nat) → Nat
  | 0, _, _ => 0
  | n + 1, .ok :: rs, d => eventsAfter n rs (d + 8) + 1
  | _ + 1, .err :: _, _ => 0
  | n + 1, [], d =>
    match Config.freeResp (d + 8) with
    | .ok => eventsAfter n [] (d + 8 + 1) + 1
    | .err => 0

/-- `eventsAfter` of the byte (r, g) in a state that is to send it. -/
def State.eventsAfterByte (s : State) (r g : Nat) : Nat :=
  eventsAfter (bytesLeft (drawRect s.params s.latches) r g) s.busScript s.draws

/-- Whether the host is still to write address `a` before `BUSY` reads 0, when the op performs `left` more events
(R64): each turn it lets the block run takes one of them; after a WAIT, `BUSY` has read 0; a reset ends the op; and no
action follows one outside the interface, at which the machine stops. -/
def racesAhead (p : Params) : (left : Nat) → List HostAction → (a : Nat) → Bool
  | _, [], _ => false
  | 0, _ :: _, _ => false
  | n + 1, act :: rest, a =>
    act.allowed p &&
      match act with
      | .memWrite addr bytes =>
        decide (addr.toNat ≤ a ∧ a < addr.toNat + bytes.length) || racesAhead p (n + 1) rest a
      | .letBlockRun => racesAhead p n rest a
      | .wait => false
      | .resetInput true => false
      | .resetInput false => racesAhead p (n + 1) rest a
      | .write _ _ _ => racesAhead p (n + 1) rest a
      | .read _ _ => racesAhead p (n + 1) rest a
      | .memRead _ => racesAhead p (n + 1) rest a

/-- Whether the host writes the byte of pixel `(i, r)` between the accepted `OP` write and `BUSY` = 0 (R64): it has
written it, or its script is still to (log entry 8). -/
def State.raced (s : State) (r i : Nat) : Bool :=
  decide (pixAddr s.latches i r ∈ s.touched)
    || racesAhead s.params (s.eventsAfterByte r (i / 8)) s.host (pixAddr s.latches i r)

/-- `MemRead(pix_addr(i, r), 1)` by the DRAW stream (R51, R52): the byte of bitmap memory, or any byte where
the host writes the address while it may not (R64, U7). -/
def State.pixel (s : State) (r i : Nat) : Byte :=
  if s.raced r i = true then Config.freePixel (s.draws + i % 8)
  else s.bitmap.read (pixAddr s.latches i r)

/-- The loop of PackByte after its first `n` bit positions (R110): bit 7 - b of the result is 1 if and only if
image column 8g + b exists and its pixel is above 0 (R111, R112, R114). -/
def packBits (width : Nat) (pix : Nat → Byte) (g : Nat) : (n : Nat) → Byte
  | 0 => 0x00#8
  | b + 1 =>
    if 8 * g + b < width ∧ 0 < (pix (8 * g + b)).toNat then
      packBits width pix g b ||| (0x80#8 >>> b)
    else packBits width pix g b

/-- `PackByte(r, g)` (R110). -/
def State.packByte (s : State) (r g : Nat) : Byte :=
  packBits s.latches.w.toNat (s.pixel r) g 8

/-- Every pixel PackByte(r, g) reads lies in bitmap memory (R52). R167 guarantees it in a running DRAW. -/
def State.packInMemory (s : State) (r g : Nat) : Bool :=
  (List.range 8).all (fun b =>
    decide (8 * g + b < s.latches.w.toNat → pixAddr s.latches (8 * g + b) r < s.params.bmpMemBytes))

end Sys2Proof.Machine
end

