-- ==== Sys2Proof/Machine/Block.lean ====
section
/-! DEFINITION. The block's turn: while an op runs, one event-producing step of its step list (R21, R36). -/

namespace Sys2Proof.Machine

/-- `SetPin(RST, lvl)` (R131, R37): no transport response. -/
def State.setPinStep (lvl : Level) (s : State) : State :=
  State.advance { s.emit (.pin lvl) with rst := lvl }

/-- `Delay(ms)` (R14, R34): a single event. -/
def State.delayStep (ms : Nat) (s : State) : State := (s.emit (.wait ms)).advance

/-- The next data byte of the running transaction (R86). -/
def dataByteStep (s : State) : Host.Outcome State Fault Refusal :=
  match s.payload with
  | b :: bs => .next (s.busData b (fun t => State.advance { t with payload := bs }))
  | [] => .fault .sequencerLost

/-- One event of WaitIdle in POLL mode (R210): the pending Delay of a High reading, or a busy reading. -/
def State.pollStep (s : State) : State :=
  match s.timer with
  | some ms => { s.emit (.wait ms) with timer := none }
  | none =>
    match s.nextBusy with
    | .low => (s.takeBusy.emit (.busy .low)).advance
    | .high => { s.takeBusy.emit (.busy .high) with timer := some Config.pollIntervalMs }
    | .err => (s.takeBusy.emit (.busy .err)).raiseTransportFailure

/-- One iteration of FillStream (R182). -/
def fillByteStep (s : State) : Host.Outcome State Fault Refusal :=
  match s.stream with
  | some (.fill (n + 1)) =>
    .next (s.busData s.latches.fill (fun t =>
      if n = 0 then State.advance { t with stream := none }
      else { t with stream := some (.fill n) }))
  | _ => .fault .sequencerLost

/-- The counter after byte (r, g) of a window of `nb` × `nr` bytes (R191): columns inner, rows outer; none
after the last byte. -/
def nextPack (nb nr r g : Nat) : Option StreamCounter :=
  if g + 1 < nb then some (.pack r (g + 1))
  else if r + 1 < nr then some (.pack (r + 1) 0)
  else none

/-- One iteration of PackStream (R191): the byte is packed from bitmap memory as it is sent (R192). -/
def packByteStep (s : State) : Host.Outcome State Fault Refusal :=
  match s.stream with
  | some (.pack r g) =>
    if s.packInMemory r g = true then
      .next (State.busData (s.packByte r g) (fun t =>
        match nextPack (drawRect t.params t.latches).nb (drawRect t.params t.latches).nr r g with
        | some c => { t with stream := some c }
        | none => State.advance { t with stream := none }) { s with draws := s.draws + 8 })
    else .fault .bitmapAddress
  | _ => .fault .sequencerLost

/-- One step of the running op. A bus command is run by `exec`, after the latch assignments that open its
sub-sequence (R160, R163). -/
def runMicroStep (m : MicroStep) (s : State) : Host.Outcome State Fault Refusal :=
  match m with
  | .setPin lvl => .next (s.setPinStep lvl)
  | .delay ms => .next (s.delayStep ms)
  | .bus c => exec c.toInstr (s.enterSubsequence c)
  | .dataByte => dataByteStep s
  | .poll => .next s.pollStep
  | .fillByte => fillByteStep s
  | .packByte => packByteStep s

/-- The block's turn: one step of the running op (R21); in IDLE and FAULT it waits for an `OP` write (R43). -/
def blockStep (s : State) : Host.Outcome State Fault Refusal :=
  if s.phase = .run then
    match s.steps[s.sp]? with
    | some m => runMicroStep m s
    | none => .fault .sequencerLost
  else .next s

end Sys2Proof.Machine
end

