-- ==== Sys2Proof/Machine/HostPort.lean ====
section
/-! DEFINITION. The host's port: the register file (R22-R28, R56), bitmap memory (R13, R50), block reset
(R290), and the host program syntax of R100 and R101. -/

namespace Sys2Proof.Machine

/-- What a read of a register offset returns (R22, R23, R28). -/
def State.regRead (s : State) (offset : BitVec 8) : Word :=
  if offset = 0x04#8 then statusWord s.status
  else if offset = 0x08#8 then s.origin
  else if offset = 0x0C#8 then s.bmpsize
  else if offset = 0x10#8 then s.bmpbase
  else 0#32

/-- A write to a register other than `OP` (R22): `STATUS` and the reserved offsets ignore it (R24, R28). -/
def State.regWrite (offset : BitVec 8) (v : Word) (s : State) : State :=
  if offset = 0x08#8 then { s with origin := v }
  else if offset = 0x0C#8 then { s with bmpsize := v }
  else if offset = 0x10#8 then { s with bmpbase := v }
  else s

/-- A write of `w` to `OP` (R230): the decoded instruction runs; a word that decodes to Illegal starts none. -/
def opWrite (w : Word) (s : State) : Host.Outcome State Fault Refusal :=
  match decodeHost w with
  | .ok i => exec i s
  | .error _ => .next s.onIllegalWrite

/-- A host register write (R56). -/
def hostWrite (offset : BitVec 8) (bits : Nat) (v : Word) (s : State) : Host.Outcome State Fault Refusal :=
  if hostAccessOk offset bits = true then
    if offset = 0x00#8 then opWrite v s else .next (s.regWrite offset v)
  else .refused .hostAccess

/-- A host register read (R56): the word goes to the host, and nothing else changes (R55). -/
def hostRead (offset : BitVec 8) (bits : Nat) (s : State) : Host.Outcome State Fault Refusal :=
  if hostAccessOk offset bits = true then .next { s with hostData := s.hostData ++ [s.regRead offset] }
  else .refused .hostAccess

/-- One turn of `WAIT` (R101): read STATUS; while BUSY = 1 let the block perform one event and read again
(log entry 13). -/
def State.waitTurn (s : State) : State :=
  if s.status.busy = true then
    { s with hostData := s.hostData ++ [statusWord s.status], host := .letBlockRun :: .wait :: s.host }
  else { s with hostData := s.hostData ++ [statusWord s.status] }

/-- The host writes bitmap memory (R13, R50); the addresses are remembered for R64. -/
def hostMemWrite (addr : Word) (bytes : List Byte) (s : State) : Host.Outcome State Fault Refusal :=
  if addr.toNat + bytes.length ≤ s.params.bmpMemBytes then
    .next { s with
      bitmap := s.bitmap.writeBytes addr.toNat bytes
      touched := insertAddrs s.touched addr.toNat bytes.length }
  else .fault .bitmapAddress

/-- The host reads one byte of bitmap memory (R50). -/
def hostMemRead (addr : Word) (s : State) : Host.Outcome State Fault Refusal :=
  if addr.toNat < s.params.bmpMemBytes then
    .next { s with hostData := s.hostData ++ [(s.bitmap.read addr.toNat).setWidth 32] }
  else .fault .bitmapAddress

/-- One host action. -/
def hostAct (a : HostAction) (s : State) : Host.Outcome State Fault Refusal :=
  match a with
  | .write offset bits v => hostWrite offset bits v s
  | .read offset bits => hostRead offset bits s
  | .wait => .next s.waitTurn
  | .memWrite addr bytes => hostMemWrite addr bytes s
  | .memRead addr => hostMemRead addr s
  | .resetInput asserted => .next (s.driveReset asserted)
  | .letBlockRun => blockStep s

/-- One turn with the reset input released: the host's next action, or the block's next event when the host has
none. -/
def releasedTurn (s : State) : Host.Outcome State Fault Refusal :=
  match s.host with
  | a :: rest => hostAct a { s with host := rest }
  | [] => blockStep s

/-- Hold the block's state in what an action answers, while the reset input is still asserted (R290). -/
def heldInReset (o : Host.Outcome State Fault Refusal) : Host.Outcome State Fault Refusal :=
  match o with
  | .next t => .next t.holdReset
  | .fault r => .fault r
  | .refused r => .refused r

/-- One turn with the reset input asserted (R290): the host acts on a block held at its reset values, so it reads
those, and what it writes to a register, `OP` among them, is lost (log entry 12). -/
def resetTurn (s : State) : Host.Outcome State Fault Refusal :=
  match s.host with
  | a :: rest => heldInReset (hostAct a { s.blockReset with host := rest })
  | [] => .next s.blockReset

/-- One turn of the whole. -/
def turn (s : State) : Host.Outcome State Fault Refusal :=
  if s.resetInput = true then resetTurn s else releasedTurn s

/-! ## Host program syntax (R100, R101) -/

/-- `WREG OP, w`. -/
def wregOp (w : Word) : HostAction := .write 0x00#8 32 w

/-- The line of an op mnemonic (R100). -/
def opLine (i : Instr) : List HostAction :=
  match encode Config.defaultCmd i with
  | .opWord w => [wregOp w]
  | .busCode _ => []

/-- `DRAWAT x, y, w, h, base` (R101). -/
def drawAt (x y w h : Half) (base : Word) : List HostAction :=
  [.write 0x08#8 32 (y ++ x), .write 0x0C#8 32 (h ++ w), .write 0x10#8 32 base] ++ opLine .draw

/-- `UPDATE x, y, w, h, base` (R101). -/
def updateAt (x y w h : Half) (base : Word) : List HostAction :=
  drawAt x y w h base ++ [.wait] ++ opLine .refresh

/-! ## Placing an instruction where the next step runs it -/

/-- The op in whose step list a bus command is found (R86, "emitted by"). -/
def homeOp : CmdName → OpCode
  | .driverOutputControl => .init
  | .boosterSoftStartControl => .init
  | .writeVcomRegister => .init
  | .setDummyLinePeriod => .init
  | .setGateTime => .init
  | .dataEntryModeSetting => .init
  | .writeLutRegister => .setlut
  | .setRamXAddressStartEndPosition => .clear
  | .setRamYAddressStartEndPosition => .clear
  | .setRamXAddressCounter => .clear
  | .setRamYAddressCounter => .clear
  | .writeRam => .clear
  | .displayUpdateControl2 => .refresh
  | .masterActivation => .refresh
  | .terminateFrameReadWrite => .refresh
  | .deepSleepMode => .sleep

/-- The state with the sequencer at the step that sends command `c`: the reset input is released, its home op is
running and `sp` names that step, between transactions (log entry 16). -/
def State.atBusCommand (c : CmdName) (s : State) : State :=
  { s with
    host := .letBlockRun :: s.host
    resetInput := false
    phase := .run
    sp := (stepList s.params (homeOp c)).findIdx (fun m => m == .bus c)
    status := s.status.accept (homeOp c)
    latches := { s.latches with op := homeOp c }
    payload := []
    stream := none
    timer := none }

/-- The state with an `OP` write of `w` as the host's next action, the reset input released. -/
def State.atOpWrite (w : Word) (s : State) : State := { s with host := wregOp w :: s.host, resetInput := false }

end Sys2Proof.Machine
end

