-- ==== Sys2Proof/Machine/Step.lean ====
section
/-! DEFINITION. One step of the machine: one host action, or one event of the block. -/

namespace Sys2Proof.Machine

/-- One step. -/
def step (s : State) : Host.Outcome State Fault Refusal := turn s

/-- The state whose next step runs the instruction of an opcode-table row: an `OP` write of a 32-bit word is
the host's next action; a command byte of 8 bits is the sequencer's next step, where it names a command. -/
def State.withFetchWord (s : State) (nbits w : Nat) : State :=
  if nbits = 8 then
    match cmdOfCode s.params.cmd (BitVec.ofNat 8 w) with
    | some c => s.atBusCommand c
    | none => s
  else s.atOpWrite (BitVec.ofNat 32 w)

end Sys2Proof.Machine
end

