-- ==== Sys2Proof/Machine/Panel.lean ====
section
/-! DEFINITION. The panel's side, for placement claims only: the default `RAM_MODEL` of R70 as a function over the
events of `T`, and the pixel polarity (R119). It is the environment's, not the block's: no state of the machine
holds it and no step reads it (R6, R35). The wrap rules are the spec's general-knowledge default (log entry 15). -/

namespace Sys2Proof.Machine

/-- The panel as R70 describes it. `none` is "no value": unknown to any claim (R72). -/
structure Panel where
  /-- `RAM[y][xb]`. -/
  ram : Nat → Nat → Option Byte
  /-- `(wxs_b, wxe_b)`. -/
  windowX : Option (Nat × Nat)
  /-- `(wys, wye)`. -/
  windowY : Option (Nat × Nat)
  /-- `xc`. -/
  counterX : Option Nat
  /-- `yc`. -/
  counterY : Option Nat
  /-- `writing`. -/
  writing : Bool
  /-- The command whose data bytes are being received. -/
  command : Option CmdName
  /-- Its data bytes so far. -/
  received : List Byte

/-- A panel of which nothing is known (R72). -/
def Panel.unknown : Panel where
  ram := fun _ _ => none
  windowX := none
  windowY := none
  counterX := none
  counterY := none
  writing := false
  command := none
  received := []

/-- A 16-bit value received low byte first (R53). -/
def leValue (lo hi : Byte) : Nat := hi.toNat * 256 + lo.toNat

/-- `RAM[y][x] <- v`. -/
def Panel.store (y x : Nat) (v : Byte) (q : Panel) : Panel :=
  { q with ram := fun y' x' => if y' = y ∧ x' = x then some v else q.ram y' x' }

/-- The counter after a byte at `(x, y)` of window columns `wxs..wxe` and rows `wys..wye` (R70). -/
def counterAfter (wx wy : Nat × Nat) (x y : Nat) : Nat × Nat :=
  if x = wx.2 then (wx.1, if y = wy.2 then wy.1 else y + 1) else (x + 1, y)

/-- `Data(v) while writing` (R70): a byte outside the panel, or at an unknown place, has an unspecified effect. -/
def Panel.write (p : Params) (v : Byte) (q : Panel) : Panel :=
  match q.windowX, q.windowY, q.counterX, q.counterY with
  | some wx, some wy, some x, some y =>
    if x < rowBytes p ∧ y < p.panelHeight then
      { q.store y x v with
        counterX := some (counterAfter wx wy x y).1
        counterY := some (counterAfter wx wy x y).2 }
    else Panel.unknown
  | _, _, _, _ => Panel.unknown

/-- The registers of the address commands, once all their data bytes are in (R70). -/
def Panel.latch (c : CmdName) (bytes : List Byte) (q : Panel) : Panel :=
  match c, bytes with
  | .setRamXAddressStartEndPosition, [a, b] => { q with windowX := some (a.toNat, b.toNat) }
  | .setRamYAddressStartEndPosition, [d0, d1, d2, d3] =>
    { q with windowY := some (leValue d0 d1, leValue d2 d3) }
  | .setRamXAddressCounter, [a] => { q with counterX := some a.toNat }
  | .setRamYAddressCounter, [d0, d1] => { q with counterY := some (leValue d0 d1) }
  | _, _ => q

/-- A data byte the panel has received. -/
def Panel.onData (p : Params) (v : Byte) (q : Panel) : Panel :=
  if q.writing then q.write p v
  else
    match q.command with
    | some c => Panel.latch c (q.received ++ [v]) { q with received := q.received ++ [v] }
    | none => q

/-- A command byte the panel has received. After DEEP_SLEEP_MODE the panel has no value (R72, U12). -/
def Panel.onCmd (p : Params) (b : Byte) (q : Panel) : Panel :=
  match cmdOfCode p.cmd b with
  | some .deepSleepMode => Panel.unknown
  | some c => { q with command := some c, received := [], writing := c == .writeRam }
  | none => { q with command := none, received := [], writing := false }

/-- One event (R70). After a failed byte (U15), a reset pulse (R72), or with REFERENCE_NOOP, where a command may
meet a busy panel (R306, U9), the panel has no value. -/
def Panel.onEvent (p : Params) (q : Panel) (e : Event) : Panel :=
  if p.busyWaitMode = .referenceNoop then Panel.unknown
  else
    match e with
    | .cmd b .ok => q.onCmd p b
    | .data v .ok => q.onData p v
    | .cmd _ .err => Panel.unknown
    | .data _ .err => Panel.unknown
    | .busy .err => Panel.unknown
    | .busy .low => q
    | .busy .high => q
    | .wait _ => q
    | .pin .low => Panel.unknown
    | .pin .high => q

/-- `RAM_MODEL` (R8, R70): how the panel takes one event. OPEN in the spec; claims name the one they assume. -/
structure RamModel where
  onEvent : Params → Panel → Event → Panel

/-- The default `RAM_MODEL` (R70). -/
def RamModel.default : RamModel := ⟨Panel.onEvent⟩

/-- The panel after a list of events. -/
def RamModel.after (m : RamModel) (p : Params) (q : Panel) (events : List Event) : Panel :=
  events.foldl (m.onEvent p) q

/-- `POLARITY` (R119, D28): whether a set bit shows dark or light. The block never inverts. -/
inductive Polarity where
  | setIsDark
  | setIsLight
deriving DecidableEq, Repr

/-- How a pixel looks. -/
inductive Shade where
  | dark
  | light
deriving DecidableEq, Repr

/-- How a packed bit shows under a polarity (R119). -/
def Polarity.shade : Polarity → Bool → Shade
  | .setIsDark, true => .dark
  | .setIsDark, false => .light
  | .setIsLight, true => .light
  | .setIsLight, false => .dark

end Sys2Proof.Machine
end

