-- ==== Sys2Proof/Machine/Traces.lean ====
section
/-! DEFINITION. The event lists the spec writes out, for claims: what a transaction (R86), a window and a pointer
set (R160-R165), a WaitIdle with `k` High readings (R210, R211) and each op (R130, R135, R180, R190, R195, R215)
append to `T` when every response is `ok`. The machine does not use this file. -/

namespace Sys2Proof.Machine

/-- A whole transaction (R86), every response `ok`. -/
def sentEvents (p : Params) (c : CmdName) (bytes : List Byte) : List Event :=
  .cmd (p.cmd.code c) .ok :: bytes.map (fun b => .data b .ok)

/-- PhysicalReset (R131). -/
def physicalResetEvents (p : Params) : List Event :=
  [.pin .low, .wait p.resetLowMs, .pin .high, .wait p.resetHighMs]

/-- SelectLut (R136). -/
def selectLutEvents (p : Params) (mode : LutMode) : List Event :=
  sentEvents p .writeLutRegister (lutOf p mode)

/-- WaitIdle (R210, R211) with `k` High readings before the Low one. -/
def waitIdleEvents (p : Params) (k : Nat) : List Event :=
  match p.busyWaitMode with
  | .poll => (List.replicate k [Event.busy .high, Event.wait Config.pollIntervalMs]).flatten ++ [.busy .low]
  | .referenceNoop => []

/-- SetMemoryWindow (R160-R162). -/
def windowEvents (p : Params) (w : Window) : List Event :=
  sentEvents p .setRamXAddressStartEndPosition [lo8 (byteColumn w.xs), lo8 (byteColumn w.xe)]
    ++ sentEvents p .setRamYAddressStartEndPosition [lo8 w.ys, hi8 w.ys, lo8 w.ye, hi8 w.ye]

/-- SetAddressPointer (R163-R165). -/
def pointerEvents (p : Params) (x y k : Nat) : List Event :=
  sentEvents p .setRamXAddressCounter [lo8 (byteColumn x)]
    ++ sentEvents p .setRamYAddressCounter [lo8 y, hi8 y]
    ++ waitIdleEvents p k

/-- What precedes every data stream (R168): the window, the pointer at its start, WRITE_RAM. -/
def preambleEvents (p : Params) (w : Window) (k : Nat) : List Event :=
  windowEvents p w ++ pointerEvents p w.xs w.ys k ++ sentEvents p .writeRam []

/-- INIT (R130). -/
def initEvents (p : Params) (mode : LutMode) : List Event :=
  physicalResetEvents p
    ++ sentEvents p .driverOutputControl
        [lo8 (p.panelHeight - 1), hi8 (p.panelHeight - 1), Config.gateScanDir]
    ++ sentEvents p .boosterSoftStartControl [0xD7#8, 0xD6#8, 0x9D#8]
    ++ sentEvents p .writeVcomRegister [0xA8#8]
    ++ sentEvents p .setDummyLinePeriod [0x1A#8]
    ++ sentEvents p .setGateTime [0x08#8]
    ++ sentEvents p .dataEntryModeSetting [0x03#8]
    ++ selectLutEvents p mode

/-- A frame stream (R182, R191). -/
def streamEvents (bytes : List Byte) : List Event := bytes.map (fun b => .data b .ok)

/-- CLEAR (R180). -/
def clearEvents (p : Params) (fill : Byte) (k : Nat) : List Event :=
  preambleEvents p (fullWindow p) k ++ streamEvents (List.replicate (frameBytes p) fill)

/-- The packed bytes of a DRAW's window, rows outer, byte columns inner (R113, R191). -/
def packedBytes (p : Params) (l : Latches) (mem : Memory) : List Byte :=
  let w := drawRect p l
  (List.range (w.nb * w.nr)).map (fun k =>
    packBits l.w.toNat (fun i => mem.read (pixAddr l i (k / w.nb))) (k % w.nb) 8)

/-- DRAW (R190), where no bitmap byte is raced. -/
def drawEvents (p : Params) (l : Latches) (mem : Memory) (k : Nat) : List Event :=
  preambleEvents p (drawRect p l) k ++ streamEvents (packedBytes p l mem)

/-- REFRESH (R195). -/
def refreshEvents (p : Params) (k : Nat) : List Event :=
  sentEvents p .displayUpdateControl2 [0xC4#8] ++ sentEvents p .masterActivation []
    ++ sentEvents p .terminateFrameReadWrite [] ++ waitIdleEvents p k

/-- SLEEP (R215). -/
def sleepEvents (p : Params) (k : Nat) : List Event :=
  sentEvents p .deepSleepMode [] ++ waitIdleEvents p k

end Sys2Proof.Machine
end

