-- ==== Sys2Proof/Safety.lean ====
section
/-! DEFINITION. What a good state is, and the words the claims are made of. The invariant says that the flags, the phase, the step pointer and the counters agree (R21, R24, R29, R33, R36), that
a running DRAW has passed its check (R231), that memory is in canonical form, when RST may be Low (R37), and that an
asserted reset input holds the block at its reset values (R290). -/

namespace Sys2Proof.Machine

/-- The flags agree with the phase (R24, R233), and the ready flags exclude each other (R130, R215). -/
structure StatusInv (s : State) : Prop where
  busy_iff_run : s.status.busy = true ↔ s.phase = .run
  fault_iff_fault : s.status.fault = true ↔ s.phase = .fault
  not_init_and_asleep : ¬(s.status.init = true ∧ s.status.asleep = true)
  fault_code : s.phase = .fault → s.status.err = .transportFailure ∨ s.status.err = .faulted

/-- How many data bytes of the running transaction are due at the head of a step list. -/
def dataDue (l : List MicroStep) : Nat := (l.takeWhile (fun m => m == .dataByte)).length

/-- The stream counter fits the step `sp` names (R33, R36). -/
def StreamFits (s : State) : Prop :=
  match s.steps[s.sp]? with
  | some .fillByte => ∃ n, s.stream = some (.fill (n + 1)) ∧ n < frameBytes s.params
  | some .packByte => ∃ r g, s.stream = some (.pack r g)
      ∧ r < (drawRect s.params s.latches).nr ∧ g < (drawRect s.params s.latches).nb
  | _ => s.stream = none

/-- The sequencer is consistent: at rest `sp` is 0 and no counter exists (R21, R33, R34); in RUN `sp` names a
step, and payload, stream counter and timer belong to it; the op was admitted (R231, R232). -/
structure SequencerInv (s : State) : Prop where
  at_rest : s.phase ≠ .run → s.sp = 0 ∧ s.payload = [] ∧ s.stream = none ∧ s.timer = none
  sp_in_list : s.phase = .run → s.sp < s.steps.length
  payload_due : s.phase = .run → s.payload.length = dataDue (s.steps.drop s.sp)
  stream_fits : s.phase = .run → StreamFits s
  timer_fits : s.phase = .run →
    s.timer = none ∨ (s.timer = some Config.pollIntervalMs ∧ s.steps[s.sp]? = some .poll)
  init_running : s.phase = .run → s.latches.op = .init →
    s.status.init = false ∧ s.status.asleep = false
  other_running : s.phase = .run → s.latches.op ≠ .init →
    s.status.init = true ∧ s.status.asleep = false
  draw_checked : s.phase = .run → s.latches.op = .draw → drawArgsValid s.params s.latches = true

/-- Bitmap memory is canonical and lies below BMP_MEM_BYTES (R50); so do the addresses remembered for R64. -/
structure MemoryInv (s : State) : Prop where
  bitmap_wf : s.bitmap.wf = true
  bitmap_in_range : ∀ c ∈ s.bitmap, c.1 < s.params.bmpMemBytes
  touched_rising : s.touched.Pairwise (· < ·)
  touched_in_range : ∀ a ∈ s.touched, a < s.params.bmpMemBytes

/-- RST is Low only inside INIT's reset pulse (R37, R131). -/
def PinInv (s : State) : Prop :=
  s.rst = .low → s.phase = .run ∧ s.latches.op = .init ∧ (s.sp = 1 ∨ s.sp = 2)

/-- While the reset input is asserted the block stands at its reset values (R290): a reset would change nothing. -/
def ResetInv (s : State) : Prop := s.resetInput = true → s.blockReset = s

/-- The invariant. -/
structure Inv (s : State) : Prop where
  status : StatusInv s
  sequencer : SequencerInv s
  memory : MemoryInv s
  pin : PinInv s
  reset : ResetInv s

/-- A host that stays inside the defined interface. -/
def HostOk (s : State) : Prop := ∀ a ∈ s.host, a.allowed s.params = true

/-! ## Words for claims about one instruction -/

/-- The block's state after reset, for the pieces R42 gives a value. -/
structure AtReset (t : State) : Prop where
  phase : t.phase = .idle
  sp : t.sp = 0
  status : t.status = ⟨false, false, false, false, .fullUpdate, false, .ok⟩
  origin : t.origin = 0#32
  bmpsize : t.bmpsize = 0#32
  bmpbase : t.bmpbase = 0#32
  timer : t.timer = none
  rst : t.rst = .high
  trace : t.trace = []

/-- What a step of an op leaves alone on the host's side: the instance with its LUT ROMs (R31), the argument
registers, the reset input, every byte of bitmap memory, what the host has left to do and what it has read. -/
structure HostSideKept (s t : State) : Prop where
  inst : t.inst = s.inst
  origin : t.origin = s.origin
  bmpsize : t.bmpsize = s.bmpsize
  bmpbase : t.bmpbase = s.bmpbase
  resetInput : t.resetInput = s.resetInput
  host : t.host = s.host
  hostData : t.hostData = s.hostData
  bitmap : ∀ a, t.bitmap.read a = s.bitmap.read a

/-- The op, mode and fill byte of a host operation (R83); none for a bus command. -/
def hostOpOf : Instr → Option (OpCode × LutMode × Byte)
  | .init mode => some (.init, mode, 0#8)
  | .setlut mode => some (.setlut, mode, 0#8)
  | .clear fill => some (.clear, .fullUpdate, fill)
  | .draw => some (.draw, .fullUpdate, 0#8)
  | .refresh => some (.refresh, .fullUpdate, 0#8)
  | .sleep => some (.sleep, .fullUpdate, 0#8)
  | .driverOutputControl => none
  | .boosterSoftStartControl => none
  | .writeVcomRegister => none
  | .setDummyLinePeriod => none
  | .setGateTime => none
  | .dataEntryModeSetting => none
  | .writeLutRegister => none
  | .setRamXAddressStartEndPosition => none
  | .setRamYAddressStartEndPosition => none
  | .setRamXAddressCounter => none
  | .setRamYAddressCounter => none
  | .writeRam => none
  | .displayUpdateControl2 => none
  | .masterActivation => none
  | .terminateFrameReadWrite => none
  | .deepSleepMode => none

/-- The arguments an op latches from the host registers (R29). -/
def argumentsOf (s : State) (op : OpCode) (mode : LutMode) (fill : Byte) : Latches where
  op := op
  mode := mode
  fill := fill
  x := s.origin.extractLsb' 0 16
  y := s.origin.extractLsb' 16 16
  w := s.bmpsize.extractLsb' 0 16
  h := s.bmpsize.extractLsb' 16 16
  base := s.bmpbase

/-- `DrawArgsValid` of the registers (R167), clause by clause. -/
def DrawRegistersValid (s : State) : Prop :=
  1 ≤ (s.bmpsize.extractLsb' 0 16).toNat ∧ 1 ≤ (s.bmpsize.extractLsb' 16 16).toNat
  ∧ (s.origin.extractLsb' 0 16).toNat < s.params.panelWidth
  ∧ (s.origin.extractLsb' 16 16).toNat < s.params.panelHeight
  ∧ s.bmpbase.toNat + (s.bmpsize.extractLsb' 0 16).toNat * (s.bmpsize.extractLsb' 16 16).toNat
      ≤ s.params.bmpMemBytes

/-- When an `OP` write of an op is accepted (R231): the reset input is released (R290), no op runs, no fault, and but
for INIT the block is ready; a DRAW's arguments are valid. -/
structure AcceptsOp (s : State) (op : OpCode) : Prop where
  released : s.resetInput = false
  not_running : s.phase ≠ .run
  no_fault : s.status.fault = false
  ready : op ≠ .init → s.status.init = true ∧ s.status.asleep = false
  args : op = .draw → DrawRegistersValid s

/-- The flags of an accepted op (R230, R232). -/
def acceptedStatus (op : OpCode) (t : Status) : Status where
  busy := true
  fault := t.fault
  init := if op = .init then false else t.init
  asleep := if op = .init then false else t.asleep
  mode := t.mode
  rej := false
  err := t.err

/-- The state just after acceptance (R29, R232): the op runs from the head of its step list, with its arguments
latched and no event sent yet. -/
structure Accepted (s t : State) (op : OpCode) (mode : LutMode) (fill : Byte) : Prop where
  phase : t.phase = .run
  sp : t.sp = 0
  status : t.status = acceptedStatus op s.status
  latches : t.latches = argumentsOf s op mode fill
  trace : t.trace = s.trace

/-- The state after an `OP` write that admission turned away with a code (R231): no event, BUSY 0, ERR the code. -/
structure TurnedAway (s t : State) (code : ErrCode) : Prop where
  status : t.status = { s.status with rej := false, err := code, busy := false }
  phase : t.phase = s.phase
  sp : t.sp = 0
  trace : t.trace = s.trace

/-- A bus command sends its transaction (R86): wherever the running op's step list has it next, the host is quiet
and every response is `ok`, `exec` sends the command byte and the following steps the data bytes. When steps are
left after it, the op goes on: `sp`, the trace and the taken responses have advanced by the transaction, no data byte
is due, WRITE_RAM has set its stream counter, and nothing else has changed. That one event is one step, and that the
data bytes due are state, is the model's (log entries 10 and 11). -/
def SendsTransaction (c : CmdName) (bytes : State → List Byte) : Prop :=
  ∀ (s : State) (rest : List Resp) (tail : List MicroStep),
    s.resetInput = false → s.phase = .run → s.host = [] → s.steps.drop s.sp = transaction c ++ tail →
    s.busScript = List.replicate (payloadLength c + 1) .ok ++ rest →
    ∃ t u, exec c.toInstr s = .next t
      ∧ t.trace = s.trace ++ [.cmd (s.params.cmd.code c) .ok]
      ∧ core.run (payloadLength c) t = .next u
      ∧ u.trace = s.trace ++ sentEvents s.params c (bytes s)
      ∧ u.busScript = rest ∧ u.busyScript = s.busyScript ∧ u.touched = s.touched ∧ u.rst = s.rst
      ∧ HostSideKept s u
      ∧ (tail ≠ [] → u = { s with
          sp := s.sp + payloadLength c + 1
          trace := s.trace ++ sentEvents s.params c (bytes s)
          busScript := rest
          payload := []
          stream := if c = .writeRam then openStream s.params s.latches else s.stream })

/-- An event whose response is `err` (R262). -/
def Event.failed : Event → Bool
  | .cmd _ .err => true
  | .data _ .err => true
  | .busy .err => true
  | .cmd _ .ok => false
  | .data _ .ok => false
  | .busy .low => false
  | .busy .high => false
  | .pin _ => false
  | .wait _ => false

/-- The busy line answers the next WaitIdle with `k` High readings and then Low, where it is read at all (R210,
R211). -/
def BusyAfter (s : State) (k : Nat) : Prop :=
  s.params.busyWaitMode = .poll → ∃ rest, s.busyScript = List.replicate k .high ++ .low :: rest

/-- The state after an op that ended OK (R233), with the flags the op left. -/
structure EndedOk (u : State) (status : Status) : Prop where
  phase : u.phase = .idle
  sp : u.sp = 0
  status : u.status = { status with busy := false, rej := false, err := .ok }

end Sys2Proof.Machine
end

