-- ==== Sys2Proof/Certificates/Slice0/Obligations.lean ====
section
/-! DEFINITION. The statements for the provers. Each docstring names the rules it comes from; a clause that rests on
a choice of the model names the log entry. -/

open Sys2Proof Sys2Proof.Machine

/-! ## Encoding -/

/-- The op words of R81 and spec/95 V8, written out bit by bit from R80, and command bytes of the default table
(R94), decode to the instructions they stand for; the illegal words of V8 do not decode. -/
def Obligations.SpecWordsDecode : Prop :=
  decodeHost 0x00000001#32 = .ok (.init .fullUpdate)
  ∧ decodeHost 0x00000011#32 = .ok (.init .partialUpdate)
  ∧ decodeHost 0x00000012#32 = .ok (.setlut .partialUpdate)
  ∧ decodeHost 0x0000FF03#32 = .ok (.clear 0xFF#8)
  ∧ decodeHost 0x00000004#32 = .ok .draw
  ∧ decodeHost 0x00000005#32 = .ok .refresh
  ∧ decodeHost 0x00000006#32 = .ok .sleep
  ∧ decodeHost 0x00000013#32 = .error .modeSet
  ∧ decodeHost 0x00000104#32 = .error .fillSet
  ∧ decodeHost 0x00000021#32 = .error .reservedBits
  ∧ decodeBus Config.defaultCmd 0x01#8 = .ok .driverOutputControl
  ∧ decodeBus Config.defaultCmd 0x44#8 = .ok .setRamXAddressStartEndPosition
  ∧ decodeBus Config.defaultCmd 0x24#8 = .ok .writeRam
  ∧ decodeBus Config.defaultCmd 0xFF#8 = .ok .terminateFrameReadWrite
  ∧ decodeBus Config.defaultCmd 0x12#8 = .error .unknownCommand

/-- Decoding the words of an instruction gives it back, for every instruction, every operand and every command table
with distinct codes (R80-R84, R94). -/
def Obligations.DecodeOfEncodeIsIdentity : Prop :=
  ∀ t : CmdTable, t.distinct = true → ∀ i : Instr, decode t (encode t i) = .ok i

/-- Every encoding that decodes is the encoding of what it decodes to: no legal word has a second spelling (R82,
R84). -/
def Obligations.EncodeOfDecodeIsIdentity : Prop :=
  ∀ (t : CmdTable) (e : Encoding) (i : Instr), decode t e = .ok i → encode t i = e

/-- R84: exactly 263 words are legal (the spec's own inference from R80 and R82). -/
def Obligations.LegalOpWordsAre263 : Prop :=
  ∃ l : List Word, l.Nodup ∧ l.length = 263 ∧ ∀ w, w ∈ l ↔ ∃ i, decodeHost w = .ok i

/-- R261: an op word with a reserved OPC or a must-be-zero field that is not zero ends ILLEGAL_OP at admission, and
nothing else changes apart from REJ. -/
def Obligations.IllegalOpEndsAtAdmission : Prop :=
  ErrCode.code .illegalOp = 1#4 ∧
  ∀ (s : State) (w : Word) (rest : List HostAction),
    s.resetInput = false → s.host = wregOp w :: rest → s.phase = .idle → s.status.busy = false → s.status.fault = false → s.sp = 0 →
    (w.extractLsb' 0 4 = 0x0#4 ∨ 7 ≤ (w.extractLsb' 0 4).toNat ∨ opWordMustBeZeroOk w = false) →
    step s = .next { s with host := rest, status := { s.status with rej := false, err := .illegalOp } }

/-! ## A step runs the decoded instruction -/

/-- With the reset input released, an `OP` write of a word that decodes runs that instruction, with the action taken
from the host's script (R230; the script is the model's own, log entry 1). -/
def Obligations.StepRunsDecodedOpWrite : Prop :=
  ∀ (s : State) (w : Word) (rest : List HostAction) (i : Instr), s.resetInput = false →
    s.host = wregOp w :: rest → decodeHost w = .ok i → step s = exec i { s with host := rest }

/-- When the running op's next step is a bus command, the block's turn runs it (R21, R86). That the latch assignments
which open its sub-sequence (R160, R163) fall in this step is the model's choice (log entry 10), and so is whose turn it
is: the block's when the host's script is empty or lets it run (log entry 1). -/
def Obligations.StepRunsBusCommand : Prop :=
  ∀ (s : State) (c : CmdName), s.resetInput = false → s.phase = .run → s.steps[s.sp]? = some (.bus c) →
    (s.host = [] → step s = exec c.toInstr (s.enterSubsequence c))
    ∧ ∀ rest, s.host = .letBlockRun :: rest →
        step s = exec c.toInstr (State.enterSubsequence c { s with host := rest })

/-- `withFetchWord` places exactly the instruction of an opcode-table row where the next step runs it, with the reset
input released (log entries 1 and 16). -/
def Obligations.PlacedInstructionRuns : Prop :=
  (∀ (s : State) (w : Nat) (i : Instr), decodeTableWord 32 w = some i →
    step (s.withFetchWord 32 w) = exec i { s with resetInput := false })
  ∧ ∀ (s : State) (w : Nat) (i : Instr), s.params.cmd = Config.defaultCmd → decodeTableWord 8 w = some i →
    ∃ c : CmdName, i = c.toInstr
      ∧ step (s.withFetchWord 8 w) = exec i (State.enterSubsequence c { s.atBusCommand c with host := s.host })

/-- Every instruction has a meaning that answers a next state in every state: nothing the block can be told to do or can
send makes the model stop (the errors of R260 are next states). That a bus command answers one also in a state whose
step list has no place for it is the model's choice (`exec` of it is total: log entry 16); R84, R86 and R260 do not say
it. -/
def Obligations.EveryInstructionAnswersANextState : Prop :=
  ∀ (i : Instr) (s : State), ∃ t, exec i s = .next t

/-! ## Host dispatch -/

/-- R230: any word written to `OP` while an op runs is dropped: REJ is set and nothing else changes. -/
def Obligations.OpWriteWhileRunningIsDropped : Prop :=
  ∀ (s : State) (w : Word) (rest : List HostAction), s.resetInput = false →
    s.host = wregOp w :: rest → s.phase = .run →
    step s = .next { s with host := rest, status := { s.status with rej := true } }

/-- R231: the checks of admission, in their order; the first that fails ends the op with its code and no event, and
otherwise the op is accepted. -/
def Obligations.AdmissionChecksInOrder : Prop :=
  ∀ (s : State) (w : Word) (rest : List HostAction), s.resetInput = false → s.host = wregOp w :: rest → s.phase ≠ .run →
    ∃ t, step s = .next t ∧
      (s.status.fault = true → TurnedAway s t .faulted)
      ∧ (s.status.fault = false →
          ((∃ r, decodeHost w = .error r) → TurnedAway s t .illegalOp)
          ∧ ∀ i op mode fill, decodeHost w = .ok i → hostOpOf i = some (op, mode, fill) →
              (op ≠ .init → ¬(s.status.init = true ∧ s.status.asleep = false) → TurnedAway s t .notReady)
              ∧ ((op = .init ∨ (s.status.init = true ∧ s.status.asleep = false)) →
                  (op = .draw → ¬DrawRegistersValid s → TurnedAway s t .invalidArg)
                  ∧ ((op = .draw → DrawRegistersValid s) → Accepted s t op mode fill)))

/-- Every host operation starts where R231 lets it: `exec` answers the accepted state of R232, and the host's side is
as before. -/
def Obligations.HostOpsStart : Prop :=
  ∀ (s : State) (i : Instr) (op : OpCode) (mode : LutMode) (fill : Byte),
    hostOpOf i = some (op, mode, fill) → AcceptsOp s op →
    ∃ t, exec i s = .next t ∧ Accepted s t op mode fill ∧ HostSideKept s t ∧ t.rst = s.rst
      ∧ t.busScript = s.busScript ∧ t.busyScript = s.busyScript

/-- The frame of the six host operations, accepted or not: no event, no register, no byte of bitmap memory, not RST,
not MODE and not FAULT changes; INIT and ASLEEP change only where INIT is accepted (R231, R232). -/
def Obligations.HostOpsFrame : Prop :=
  ∀ (s t : State) (i : Instr) (op : OpCode) (mode : LutMode) (fill : Byte),
    hostOpOf i = some (op, mode, fill) → exec i s = .next t →
    HostSideKept s t ∧ t.trace = s.trace ∧ t.rst = s.rst ∧ t.busScript = s.busScript
    ∧ t.busyScript = s.busyScript ∧ t.status.mode = s.status.mode ∧ t.status.fault = s.status.fault
    ∧ (¬(op = .init ∧ s.phase ≠ .run ∧ s.status.fault = false) →
        t.status.init = s.status.init ∧ t.status.asleep = s.status.asleep)

/-- While an op runs, no host action but a block reset touches its sequencing: the phase, `sp`, latches, window,
pointer, counters, timer, RST and trace stay, and no flag but REJ changes (R29, R230, R234). -/
def Obligations.HostCannotDisturbRunningOp : Prop :=
  ∀ (s t : State) (a : HostAction) (rest : List HostAction), s.resetInput = false → s.phase = .run →
    s.host = a :: rest → a ≠ .resetInput true → a ≠ .letBlockRun → step s = .next t →
    t.phase = .run ∧ t.sp = s.sp ∧ t.latches = s.latches ∧ t.window = s.window ∧ t.pointer = s.pointer
    ∧ t.payload = s.payload ∧ t.stream = s.stream ∧ t.timer = s.timer ∧ t.rst = s.rst ∧ t.trace = s.trace
    ∧ t.status = { s.status with rej := t.status.rej }

/-! ## Registers -/

/-- R28: the reserved offsets read 0 and ignore writes, the reserved bits of STATUS read 0, and every bit of ORIGIN,
BMPSIZE and BMPBASE is stored. -/
def Obligations.ReservedOffsetsAndBits : Prop :=
  (∀ (s : State) (o : BitVec 8) (v : Word), 0x14 ≤ o.toNat → s.regRead o = 0#32 ∧ s.regWrite o v = s)
  ∧ (∀ t : Status, (statusWord t).extractLsb' 6 2 = 0#2 ∧ (statusWord t).extractLsb' 12 20 = 0#20)
  ∧ ∀ (s : State) (v : Word), (s.regWrite 0x08#8 v).regRead 0x08#8 = v
      ∧ (s.regWrite 0x0C#8 v).regRead 0x0C#8 = v ∧ (s.regWrite 0x10#8 v).regRead 0x10#8 = v

/-- R24 and R260: where each flag stands in the STATUS word, and the code of every result. -/
def Obligations.StatusWordFields : Prop :=
  (∀ t : Status, (statusWord t).getLsbD 0 = t.busy ∧ (statusWord t).getLsbD 1 = t.fault
    ∧ (statusWord t).getLsbD 2 = t.init ∧ (statusWord t).getLsbD 3 = t.asleep
    ∧ (statusWord t).getLsbD 4 = decide (t.mode = .partialUpdate) ∧ (statusWord t).getLsbD 5 = t.rej
    ∧ (statusWord t).extractLsb' 8 4 = t.err.code)
  ∧ ErrCode.ok.code = 0#4 ∧ ErrCode.illegalOp.code = 1#4 ∧ ErrCode.notReady.code = 2#4
  ∧ ErrCode.invalidArg.code = 3#4 ∧ ErrCode.transportFailure.code = 4#4 ∧ ErrCode.faulted.code = 5#4

/-- A 32-bit read at a multiple of 4 gives the host the register's value (R22, R23, R24) and changes nothing else
(R55). -/
def Obligations.RegisterReadHasNoSideEffect : Prop :=
  ∀ (s : State) (o : BitVec 8) (rest : List HostAction), s.resetInput = false → o.toNat % 4 = 0 →
    s.host = .read o 32 :: rest →
    ∃ v, step s = .next { s with host := rest, hostData := s.hostData ++ [v] }
      ∧ (o = 0x00#8 → v = 0#32) ∧ (o = 0x04#8 → v = statusWord s.status) ∧ (o = 0x08#8 → v = s.origin)
      ∧ (o = 0x0C#8 → v = s.bmpsize) ∧ (o = 0x10#8 → v = s.bmpbase) ∧ (0x14 ≤ o.toNat → v = 0#32)

/-- R50 and R55: a host read of bitmap memory gives the byte there and changes nothing else. R101: a WAIT reads STATUS;
while BUSY = 1 it goes on waiting, and when BUSY = 0 it is over. That the block has one event between two reads is the
model's choice (log entry 13), and so is where the host keeps what it reads. -/
def Obligations.HostMemReadAndWaitTurn : Prop :=
  (∀ (s : State) (addr : Word) (rest : List HostAction), s.resetInput = false → s.host = .memRead addr :: rest →
    addr.toNat < s.params.bmpMemBytes →
    step s = .next { s with
      host := rest
      hostData := s.hostData ++ [(s.bitmap.read addr.toNat).setWidth 32] })
  ∧ ∀ (s : State) (rest : List HostAction), s.resetInput = false → s.host = .wait :: rest →
    (s.status.busy = true → step s = .next { s with
      host := .letBlockRun :: .wait :: rest
      hostData := s.hostData ++ [statusWord s.status] })
    ∧ (s.status.busy = false → step s = .next { s with
      host := rest
      hostData := s.hostData ++ [statusWord s.status] })

/-- A 32-bit write at a multiple of 4 other than `OP` sets the register it names and nothing else; STATUS and the
reserved offsets ignore it (R22, R24, R28). -/
def Obligations.RegisterWriteSetsItsRegister : Prop :=
  ∀ (s : State) (o : BitVec 8) (v : Word) (rest : List HostAction), s.resetInput = false → o.toNat % 4 = 0 →
    o ≠ 0x00#8 →
    s.host = .write o 32 v :: rest →
    step s = .next { s with
      host := rest
      origin := if o = 0x08#8 then v else s.origin
      bmpsize := if o = 0x0C#8 then v else s.bmpsize
      bmpbase := if o = 0x10#8 then v else s.bmpbase }

/-- R56: a register access of another width, or at an offset that is not a multiple of 4, is refused. -/
def Obligations.NarrowOrMisalignedAccessIsRefused : Prop :=
  ∀ (s : State) (o : BitVec 8) (bits : Nat) (v : Word) (rest : List HostAction), ¬(bits = 32 ∧ o.toNat % 4 = 0) →
    (s.host = .write o bits v :: rest → step s = .refused .hostAccess)
    ∧ (s.host = .read o bits :: rest → step s = .refused .hostAccess)

/-! ## Bitmap memory -/

/-- A host write of bytes to bitmap memory stores exactly them: each reads back, and every other byte and everything
else the block sees is as before (R13, R50). The record of written addresses, by which the model tells the races of
R64, is the model's device and gains exactly these addresses (log entry 8). -/
def Obligations.HostMemWriteStoresItsBytes : Prop :=
  ∀ (s : State) (addr : Word) (bytes : List Byte) (rest : List HostAction), s.resetInput = false →
    s.bitmap.wf = true → s.host = .memWrite addr bytes :: rest → addr.toNat + bytes.length ≤ s.params.bmpMemBytes →
    ∃ t, step s = .next t
      ∧ (∀ (k : Nat) (h : k < bytes.length), t.bitmap.read (addr.toNat + k) = bytes[k])
      ∧ (∀ a, a < addr.toNat ∨ addr.toNat + bytes.length ≤ a → t.bitmap.read a = s.bitmap.read a)
      ∧ (∀ a, a ∈ t.touched ↔ (addr.toNat ≤ a ∧ a < addr.toNat + bytes.length) ∨ a ∈ s.touched)
      ∧ t = { s with host := rest, bitmap := t.bitmap, touched := t.touched }

/-- Only the host writes bitmap memory (R13): every other step leaves every byte as it was. That this holds across a
block reset, of which the spec does not speak, is the model's choice (log entry 12). -/
def Obligations.OnlyTheHostWritesBitmap : Prop :=
  ∀ s t : State, step s = .next t → (∀ addr bytes rest, s.host ≠ .memWrite addr bytes :: rest) →
    ∀ a, t.bitmap.read a = s.bitmap.read a

/-- R60, R64: what a DRAW reads at a pixel. On an ordered platform an accepted op starts with no byte raced, and a byte
the host's script does not write reads as memory holds it. A byte the host has written since, or is still to write
before `BUSY` = 0, reads as a free value. A write that comes only after a WAIT, when `BUSY` has read 0, or only after the
op's last event, be it the last byte or the one that fails (R262), races with nothing. The platform parameter and the way
a race is told from the scripts are the model's (log entries 8 and 9). -/
def Obligations.BitmapReadsFollowTheRaceRule : Prop :=
  (∀ (s t : State) (i : Instr) (op : OpCode) (mode : LutMode) (fill : Byte),
    hostOpOf i = some (op, mode, fill) → AcceptsOp s op → exec i s = .next t →
    s.params.platformOrdering = .ordered → t.touched = [] ∧
      ∀ r c, (∀ addr bytes, .memWrite addr bytes ∈ s.host →
          pixAddr t.latches c r < addr.toNat ∨ addr.toNat + bytes.length ≤ pixAddr t.latches c r) →
        t.pixel r c = s.bitmap.read (pixAddr t.latches c r))
  ∧ (∀ (s : State) (r c : Nat), pixAddr s.latches c r ∈ s.touched →
      s.pixel r c = Config.freePixel (s.draws + c % 8))
  ∧ (∀ (s : State) (r c : Nat) (before rest : List HostAction) (addr : Word) (bytes : List Byte),
      s.host = before ++ .memWrite addr bytes :: rest →
      addr.toNat ≤ pixAddr s.latches c r → pixAddr s.latches c r < addr.toNat + bytes.length →
      addr.toNat + bytes.length ≤ s.params.bmpMemBytes →
      (∀ x ∈ before, x.allowed s.params = true ∧ x ≠ .wait ∧ x ≠ .resetInput true) →
      before.count .letBlockRun < s.eventsAfterByte r (c / 8) →
      s.pixel r c = Config.freePixel (s.draws + c % 8))
  ∧ (∀ (s : State) (r c : Nat) (before rest : List HostAction), s.host = before ++ rest →
      pixAddr s.latches c r ∉ s.touched →
      (∀ addr bytes, .memWrite addr bytes ∈ before →
        pixAddr s.latches c r < addr.toNat ∨ addr.toNat + bytes.length ≤ pixAddr s.latches c r) →
      (rest.head? = some .wait ∨ s.eventsAfterByte r (c / 8) ≤ before.count .letBlockRun) →
      s.pixel r c = s.bitmap.read (pixAddr s.latches c r))
  ∧ (∀ (s : State) (r g k : Nat) (more : List Resp), s.busScript = List.replicate k .ok ++ .err :: more →
      s.eventsAfterByte r g = min k (bytesLeft (drawRect s.params s.latches) r g))
  ∧ ∀ (s : State) (r g k : Nat) (more : List Resp), s.busScript = List.replicate k .ok ++ more →
      bytesLeft (drawRect s.params s.latches) r g ≤ k →
      s.eventsAfterByte r g = bytesLeft (drawRect s.params s.latches) r g

/-! ## Bus commands -/

/-- R133, R134, R137, R138, R139: the fixed payloads of the init commands. The division into steps is the model's (log
entries 10 and 11). -/
def Obligations.InitCommandsSendTheirConstants : Prop :=
  SendsTransaction .boosterSoftStartControl (fun _ => [0xD7#8, 0xD6#8, 0x9D#8])
  ∧ SendsTransaction .writeVcomRegister (fun _ => [0xA8#8])
  ∧ SendsTransaction .setDummyLinePeriod (fun _ => [0x1A#8])
  ∧ SendsTransaction .setGateTime (fun _ => [0x08#8])
  ∧ SendsTransaction .dataEntryModeSetting (fun _ => [0x03#8])

/-- R132 and R136: DRIVER_OUTPUT_CONTROL sends PH - 1 little-endian and 0x00; WRITE_LUT_REGISTER sends the whole
table of the op's mode. -/
def Obligations.OutputControlAndLutSendTheirBytes : Prop :=
  SendsTransaction .driverOutputControl
    (fun s => [lo8 (s.params.panelHeight - 1), hi8 (s.params.panelHeight - 1), 0x00#8])
  ∧ (∀ i : BlockInstance,
      (hi8 (i.params.panelHeight - 1)).toNat * 256 + (lo8 (i.params.panelHeight - 1)).toNat
        = i.params.panelHeight - 1)
  ∧ SendsTransaction .writeLutRegister
      (fun s => match s.latches.mode with
        | .fullUpdate => s.params.lutFull
        | .partialUpdate => s.params.lutPartial)

/-- R161, R162, R164, R165: the address commands send the window's edges and the pointer, X as byte columns, Y
little-endian. The division into steps is the model's (log entries 10 and 11). -/
def Obligations.AddressCommandsSendTheirBytes : Prop :=
  SendsTransaction .setRamXAddressStartEndPosition (fun s => [lo8 (s.window.xs / 8), lo8 (s.window.xe / 8)])
  ∧ SendsTransaction .setRamYAddressStartEndPosition
      (fun s => [lo8 s.window.ys, hi8 s.window.ys, lo8 s.window.ye, hi8 s.window.ye])
  ∧ SendsTransaction .setRamXAddressCounter (fun s => [lo8 (s.pointer.px / 8)])
  ∧ SendsTransaction .setRamYAddressCounter (fun s => [lo8 s.pointer.py, hi8 s.pointer.py])
  ∧ ∀ (i : BlockInstance) (x y : Nat), x < i.params.panelWidth → y < i.params.panelHeight →
      (lo8 (x / 8)).toNat = x / 8 ∧ (hi8 y).toNat * 256 + (lo8 y).toNat = y

/-- R196, R197, R216, and the events of R198: the commands of REFRESH and SLEEP. -/
def Obligations.RefreshAndSleepCommandsSendTheirBytes : Prop :=
  SendsTransaction .displayUpdateControl2 (fun _ => [0xC4#8])
  ∧ SendsTransaction .masterActivation (fun _ => [])
  ∧ SendsTransaction .terminateFrameReadWrite (fun _ => [])
  ∧ SendsTransaction .deepSleepMode (fun _ => [])

/-- R181, R182, R191: WRITE_RAM sends its command byte and no data byte of its own; then CLEAR has FRAME_BYTES fill
bytes to send, and DRAW starts at row 0, byte column 0. That the counter is set in WRITE_RAM's own step, and the
division into steps, are the model's (log entries 10 and 11). -/
def Obligations.WriteRamOpensTheStream : Prop :=
  SendsTransaction .writeRam (fun _ => [])
  ∧ ∀ s : State, s.nextResp = .ok → s.sp + 1 < s.steps.length →
      ∃ t, exec .writeRam s = .next t
        ∧ (s.latches.op = .clear →
            t.stream = some (.fill (s.params.panelWidth / 8 * s.params.panelHeight)))
        ∧ (s.latches.op = .draw → t.stream = some (.pack 0 0))

/-- The frame of the sixteen bus commands: the registers, every byte of bitmap memory, RST and the busy script stay;
while the op goes on, so do its flags, latches, window, pointer and timer, and but for WRITE_RAM the stream. -/
def Obligations.BusCommandsFrame : Prop :=
  ∀ (s t : State) (c : CmdName), exec c.toInstr s = .next t →
    HostSideKept s t ∧ t.rst = s.rst ∧ t.touched = s.touched ∧ t.busyScript = s.busyScript
    ∧ (s.nextResp = .ok → s.sp + 1 < s.steps.length →
        t.status = s.status ∧ t.phase = s.phase ∧ t.latches = s.latches ∧ t.window = s.window
        ∧ t.pointer = s.pointer ∧ t.timer = s.timer ∧ (c ≠ .writeRam → t.stream = s.stream))

/-- A bus command whose command byte gets `err` ends its op with TransportFailure (R262): the event is appended, and
ERR, FAULT, phase, BUSY and `sp` are those of R233. -/
def Obligations.FailedCommandByteRaises : Prop :=
  ∀ (s : State) (c : CmdName), s.nextResp = .err →
    ∃ t, exec c.toInstr s = .next t
      ∧ t.trace = s.trace ++ [.cmd (s.params.cmd.code c) .err]
      ∧ t.status = { s.status with err := .transportFailure, fault := true, busy := false }
      ∧ t.phase = .fault ∧ t.sp = 0

/-! ## Whole operations -/

/-- R130: INIT from any state that accepts it, with the host quiet and every response `ok`, appends its 51 events and
ends OK with INIT = 1, ASLEEP = 0 and MODE the op's; RST is High and the host's side is as before. -/
def Obligations.InitRunsToItsEnd : Prop :=
  ∀ (s : State) (m : LutMode) (rest : List Resp), AcceptsOp s .init → s.host = [] →
    s.busScript = List.replicate 47 .ok ++ rest →
    ∃ t u, exec (.init m) s = .next t ∧ core.run 51 t = .next u
      ∧ u.trace = s.trace ++ initEvents s.params m
      ∧ EndedOk u { s.status with init := true, asleep := false, mode := m }
      ∧ u.rst = .high ∧ u.busScript = rest ∧ HostSideKept s u

/-- R135, R136: SETLUT appends its 31 events whatever MODE is, and ends OK with MODE the op's. -/
def Obligations.SetlutRunsToItsEnd : Prop :=
  ∀ (s : State) (m : LutMode) (rest : List Resp), AcceptsOp s .setlut → s.host = [] →
    s.busScript = List.replicate 31 .ok ++ rest →
    ∃ t u, exec (.setlut m) s = .next t ∧ core.run 31 t = .next u
      ∧ u.trace = s.trace ++ selectLutEvents s.params m
      ∧ EndedOk u { s.status with mode := m }
      ∧ u.rst = s.rst ∧ u.busScript = rest ∧ HostSideKept s u

/-- R180: CLEAR appends the window, the pointer, the WaitIdle, WRITE_RAM and FRAME_BYTES copies of its fill byte, and
ends OK with no other flag changed. One event is one step (log entry 10). -/
def Obligations.ClearRunsToItsEnd : Prop :=
  ∀ (s : State) (fill : Byte) (k : Nat) (rest : List Resp), Inv s → AcceptsOp s .clear → s.host = [] →
    s.busScript = List.replicate (14 + frameBytes s.params) .ok ++ rest → BusyAfter s k →
    ∃ t u, exec (.clear fill) s = .next t
      ∧ core.run (clearEvents s.params fill k).length t = .next u
      ∧ u.trace = s.trace ++ clearEvents s.params fill k
      ∧ EndedOk u s.status ∧ u.rst = s.rst ∧ u.busScript = rest ∧ HostSideKept s u

/-- R190: DRAW appends the window of its rectangle, the pointer at its start, the WaitIdle, WRITE_RAM and nb × nr data
bytes, and ends OK with no other flag changed. The bytes are the packed bitmap, where no byte the host has written may
still be on its way: on an ordered platform, or with none recorded (log entry 9). One event is one step (log entry
10). -/
def Obligations.DrawRunsToItsEnd : Prop :=
  ∀ (s : State) (k : Nat) (rest : List Resp),
    let l := argumentsOf s .draw .fullUpdate 0#8
    let w := drawRect s.params l
    Inv s → AcceptsOp s .draw → s.host = [] → s.busScript = List.replicate (14 + w.nb * w.nr) .ok ++ rest →
    BusyAfter s k →
    ∃ t u bytes, exec .draw s = .next t
      ∧ core.run (preambleEvents s.params w k ++ streamEvents bytes).length t = .next u
      ∧ u.trace = s.trace ++ preambleEvents s.params w k ++ streamEvents bytes
      ∧ bytes.length = w.nb * w.nr
      ∧ (s.params.platformOrdering = .ordered ∨ s.touched = [] → bytes = packedBytes s.params l s.bitmap)
      ∧ EndedOk u s.status ∧ u.rst = s.rst ∧ u.busScript = rest ∧ HostSideKept s u

/-- R195: REFRESH appends the update control byte 0xC4, MASTER_ACTIVATION, TERMINATE_FRAME_READ_WRITE and the
WaitIdle, in both LUT modes, and ends OK with no other flag changed. -/
def Obligations.RefreshRunsToItsEnd : Prop :=
  ∀ (s : State) (k : Nat) (rest : List Resp), Inv s → AcceptsOp s .refresh → s.host = [] →
    s.busScript = List.replicate 4 .ok ++ rest → BusyAfter s k →
    ∃ t u, exec .refresh s = .next t ∧ core.run (refreshEvents s.params k).length t = .next u
      ∧ u.trace = s.trace ++ refreshEvents s.params k
      ∧ EndedOk u s.status ∧ u.rst = s.rst ∧ u.busScript = rest ∧ HostSideKept s u

/-- R215: SLEEP appends DEEP_SLEEP_MODE and the WaitIdle and ends OK with ASLEEP = 1 and INIT = 0. -/
def Obligations.SleepRunsToItsEnd : Prop :=
  ∀ (s : State) (k : Nat) (rest : List Resp), Inv s → AcceptsOp s .sleep → s.host = [] →
    s.busScript = .ok :: rest → BusyAfter s k →
    ∃ t u, exec .sleep s = .next t ∧ core.run (sleepEvents s.params k).length t = .next u
      ∧ u.trace = s.trace ++ sleepEvents s.params k
      ∧ EndedOk u { s.status with init := false, asleep := true }
      ∧ u.rst = s.rst ∧ u.busScript = rest ∧ HostSideKept s u

/-- R141: two INITs of one mode on one instance append the same events and leave the same flags, whatever went before
(the spec's own inference from R130, R131 and R136). That both have ended after exactly 51 steps is the model's
inference: one event is one step, and End falls in the step of the last event (log entry 10). -/
def Obligations.InitIsIdempotent : Prop :=
  ∀ (s s' : State) (m : LutMode) (rest rest' : List Resp), AcceptsOp s .init → AcceptsOp s' .init →
    s.inst = s'.inst → s.host = [] → s'.host = [] →
    s.busScript = List.replicate 47 .ok ++ rest → s'.busScript = List.replicate 47 .ok ++ rest' →
    ∃ t u t' u' es, exec (.init m) s = .next t ∧ core.run 51 t = .next u
      ∧ exec (.init m) s' = .next t' ∧ core.run 51 t' = .next u'
      ∧ u.trace = s.trace ++ es ∧ u'.trace = s'.trace ++ es ∧ u.status = u'.status

/-! ## The trace -/

/-- A step of the machine appends at most one event, an event comes only from a running op (R40), and only an asserted
reset input empties the trace (R42). That a step performs no more than one event is the model's inference from R21 and
R36 (log entry 10); R40 says that each interface primitive appends one event, not what one step performs. -/
def Obligations.AStepAppendsAtMostOneEvent : Prop :=
  ∀ s t : State, step s = .next t →
    t.trace = s.trace ∨ (s.resetInput = false ∧ s.phase = .run ∧ ∃ e, t.trace = s.trace ++ [e])
    ∨ ((s.resetInput = true ∨ t.resetInput = true) ∧ t.trace = [])

/-- R88: a command byte that is sent is the code of one of the sixteen commands, the one the running op's step list
names. -/
def Obligations.OnlyListedCommandsAreSent : Prop :=
  ∀ (s t : State) (b : Byte) (r : Resp), step s = .next t → t.trace = s.trace ++ [.cmd b r] →
    ∃ c : CmdName, b = s.params.cmd.code c ∧ s.steps[s.sp]? = some (.bus c)

/-- R168: in every run from a good state at rest, whatever the environment answers and whatever the host does, when the
running op is at its data stream, all it has appended since it started (since the last state at rest) is one window
set, one pointer set to the window's start with its WaitIdle, one WRITE_RAM, and then the stream bytes sent so far. -/
def Obligations.StreamIsPrecededByWindowAndPointer : Prop :=
  ∀ (s u : State) (n : Nat), Inv s → s.phase ≠ .run → core.run n s = .next u → u.phase = .run →
    (u.steps[u.sp]? = some .fillByte ∨ u.steps[u.sp]? = some .packByte) →
    ∃ (m : Nat) (v : State), m < n ∧ core.run m s = .next v ∧ v.phase ≠ .run
      ∧ (∀ (j : Nat) (x : State), m < j → j ≤ n → core.run j s = .next x → x.phase = .run)
      ∧ ∃ (k : Nat) (bytes : List Byte),
        u.trace = v.trace ++ preambleEvents u.params (opWindow u.params u.latches) k ++ streamEvents bytes

/-- R211, R212: the busy line is read only by the WaitIdle step of CLEAR, DRAW, REFRESH and SLEEP, and never in
REFERENCE_NOOP mode. -/
def Obligations.BusyIsReadOnlyInWaitIdle : Prop :=
  ∀ (s t : State) (r : BusyResp), step s = .next t → t.trace = s.trace ++ [.busy r] →
    s.steps[s.sp]? = some .poll ∧ s.params.busyWaitMode = .poll
    ∧ (s.latches.op = .clear ∨ s.latches.op = .draw ∨ s.latches.op = .refresh ∨ s.latches.op = .sleep)

/-! ## Errors -/

/-- R262: the failure is precise. An event whose response is `err` is the op's last: ERR is TRANSPORT_FAILURE, FAULT = 1, BUSY = 0,
INIT, ASLEEP, MODE and REJ unchanged, and no event follows until a block reset. Any other event leaves FAULT alone. -/
def Obligations.TransportFailureIsPrecise : Prop :=
  ∀ (s t : State) (e : Event), step s = .next t → t.trace = s.trace ++ [e] →
    (e.failed = true →
      t.phase = .fault ∧ t.sp = 0
      ∧ t.status = { s.status with err := .transportFailure, fault := true, busy := false }
      ∧ ∀ (n : Nat) (u : State), (∀ a ∈ t.host, a ≠ .resetInput true) → core.run n t = .next u →
          u.trace = t.trace ∧ u.phase = .fault)
    ∧ (e.failed = false → t.status.fault = s.status.fault)

/-- R265, R269: after a TransportFailure every step but a block reset leaves the block in FAULT with no event, and
every `OP` write ends FAULTED. -/
def Obligations.FaultLastsUntilBlockReset : Prop :=
  ∀ s t : State, s.resetInput = false → s.phase = .fault → s.status.fault = true →
    (∀ rest, s.host ≠ .resetInput true :: rest) → step s = .next t →
    t.phase = .fault ∧ t.status.fault = true ∧ t.trace = s.trace
    ∧ ∀ w rest, s.host = wregOp w :: rest → t.status.err = .faulted ∧ ErrCode.code .faulted = 5#4

/-- R217: while the panel sleeps no event reaches it, and only INIT, whose first step drives RST Low, gets the block
out of that state. -/
def Obligations.SleepingPanelGetsNoCommand : Prop :=
  ∀ s t : State, Inv s → s.status.asleep = true → step s = .next t →
    (t.trace = s.trace ∨ ∃ rest, s.host = .resetInput true :: rest)
    ∧ (t.phase = .run → t.latches.op = .init ∧ t.sp = 0 ∧ t.steps[t.sp]? = some (.setPin .low))

/-! ## Busy-wait -/

/-- R210: one iteration of the poll. A Low reading ends WaitIdle: the op goes on, or where WaitIdle is its last step
(REFRESH, SLEEP: R195, R215) it ends OK, SLEEP with ASLEEP = 1 and INIT = 0. A High reading is followed by a 100 ms wait
and another reading; an `err` ends the op with TransportFailure. One event is one step (log entry 10). -/
def Obligations.PollReadsThenChecks : Prop :=
  ∀ s : State, s.resetInput = false → s.phase = .run → s.host = [] → s.steps[s.sp]? = some .poll → s.timer = none →
    (s.nextBusy = .low → ∃ t, step s = .next t ∧ t.trace = s.trace ++ [.busy .low]
        ∧ (s.sp + 1 < s.steps.length → t.sp = s.sp + 1 ∧ t.phase = .run ∧ t.status = s.status)
        ∧ (s.sp + 1 = s.steps.length → t.phase = .idle ∧ t.sp = 0
            ∧ ((s.latches.op = .refresh ∧ t.status = { s.status with busy := false, err := .ok })
              ∨ (s.latches.op = .sleep ∧ t.status
                = { s.status with busy := false, err := .ok, asleep := true, init := false }))))
    ∧ (s.nextBusy = .high → ∃ t u, step s = .next t ∧ t.trace = s.trace ++ [.busy .high]
        ∧ step t = .next u ∧ u.trace = s.trace ++ [.busy .high, .wait 100] ∧ u.sp = s.sp ∧ u.phase = .run
        ∧ u.timer = none ∧ u.status = s.status)
    ∧ (s.nextBusy = .err → ∃ t, step s = .next t ∧ t.trace = s.trace ++ [.busy .err] ∧ t.phase = .fault)

/-- R210: WaitIdle with k High readings takes 2k + 1 events; then the op goes on, or ends OK where it was its last
step. One event is one step (log entry 10). -/
def Obligations.WaitIdleEndsAfterLow : Prop :=
  ∀ (s : State) (k : Nat) (rest : List BusyResp), s.resetInput = false → s.phase = .run → s.host = [] →
    s.steps[s.sp]? = some .poll → s.timer = none →
    s.busyScript = List.replicate k .high ++ .low :: rest →
    ∃ u, core.run (2 * k + 1) s = .next u
      ∧ u.trace = s.trace ++ (List.replicate k [Event.busy .high, Event.wait 100]).flatten ++ [.busy .low]
      ∧ (s.sp + 1 < s.steps.length → u.sp = s.sp + 1 ∧ u.phase = .run ∧ u.status = s.status)
      ∧ (s.sp + 1 = s.steps.length →
          u.phase = .idle ∧ u.sp = 0 ∧ u.status.busy = false ∧ u.status.err = .ok)

/-- R214, R266: the hang. As long as every reading is High, the op goes on polling, BUSY stays 1 and the trace grows by
a busy reading and a wait each time, for any number of readings. That n pairs take 2n steps is the model's inference: one
event is one step (log entry 10). -/
def Obligations.HangGoesOnPolling : Prop :=
  ∀ (s : State) (n : Nat) (rest : List BusyResp), s.resetInput = false → s.phase = .run → s.status.busy = true →
    s.host = [] →
    s.steps[s.sp]? = some .poll → s.timer = none → s.busyScript = List.replicate n .high ++ rest →
    ∃ u, core.run (2 * n) s = .next u
      ∧ u.trace = s.trace ++ (List.replicate n [Event.busy .high, Event.wait 100]).flatten
      ∧ u.phase = .run ∧ u.status.busy = true ∧ u.sp = s.sp

/-! ## The bit packer -/

/-- R111, R112, R114: bit 7 - b of the packed byte of group g is 1 if and only if image column 8g + b exists and its
pixel is above 0. -/
def Obligations.PackedBitIsThreshold : Prop :=
  ∀ (s : State) (r g b : Nat), b < 8 →
    ((s.packByte r g).getLsbD (7 - b) = true ↔
      8 * g + b < s.latches.w.toNat ∧ 0 < (s.pixel r (8 * g + b)).toNat)

/-- R116: the stream of a DRAW depends on no bitmap byte but those of the pixels in rows below nr and columns below
min(L_W, 8 × nb): two memories that agree on them pack the same. -/
def Obligations.PackingReadsOnlyTheWindow : Prop :=
  ∀ (p : Params) (l : Latches) (m m' : Memory),
    (∀ i j, j < (drawRect p l).nr → i < l.w.toNat → i < 8 * (drawRect p l).nb →
      m.read (pixAddr l i j) = m'.read (pixAddr l i j)) →
    packedBytes p l m = packedBytes p l m'

/-- R117: a DRAW streams nb × nr bytes, and ceil(W / 8) × H where the window is not clamped (the spec's own inference
from R166). -/
def Obligations.PackedLength : Prop :=
  ∀ (i : BlockInstance) (l : Latches) (m : Memory), drawArgsValid i.params l = true →
    (packedBytes i.params l m).length = (drawRect i.params l).nb * (drawRect i.params l).nr
    ∧ (l.x.toNat / 8 * 8 + l.w.toNat ≤ i.params.panelWidth → l.y.toNat + l.h.toNat ≤ i.params.panelHeight →
        (packedBytes i.params l m).length = (l.w.toNat + 7) / 8 * l.h.toNat)

/-! ## The address unit -/

/-- R171: the window of a DRAW that passes the check lies in the panel and starts at a byte column (the spec's own
inference from R166 and R167). -/
def Obligations.DrawWindowIsInsideThePanel : Prop :=
  ∀ (i : BlockInstance) (l : Latches), drawArgsValid i.params l = true →
    let w := drawRect i.params l
    w.xs ≤ w.xe ∧ w.xe < i.params.panelWidth ∧ w.ys ≤ w.ye ∧ w.ye < i.params.panelHeight ∧ w.xs % 8 = 0
    ∧ 1 ≤ w.nb ∧ w.nb ≤ i.params.panelWidth / 8 ∧ 1 ≤ w.nr ∧ w.nr ≤ i.params.panelHeight

/-- R172, C11: a DRAW that extends past the right edge ends, on the bus, at the panel's last byte column (the spec's
own inference from R166). -/
def Obligations.RightEdgeIsTruncated : Prop :=
  ∀ (i : BlockInstance) (l : Latches), drawArgsValid i.params l = true →
    i.params.panelWidth < l.x.toNat + l.w.toNat →
    (drawRect i.params l).xe / 8 = i.params.panelWidth / 8 - 1

/-! ## Placement in the panel's RAM (the default RAM_MODEL of R70, log entry 15) -/

/-- R71: under the default RAM_MODEL in POLL mode, byte k of a DRAW's stream lands at row ys + k / nb, byte column
(xs >> 3) + k mod nb, and nothing outside the window changes, whatever the panel held. -/
def Obligations.DrawBytesLandInTheirWindow : Prop :=
  ∀ (i : BlockInstance) (l : Latches) (m : Memory) (k : Nat) (q : Panel),
    drawArgsValid i.params l = true → i.params.busyWaitMode = .poll →
    let w := drawRect i.params l
    let q' := RamModel.default.after i.params q (drawEvents i.params l m k)
    (∀ j, j < w.nb * w.nr →
      q'.ram (w.ys + j / w.nb) (w.xs / 8 + j % w.nb) = (packedBytes i.params l m)[j]?)
    ∧ ∀ y x, ¬(w.ys ≤ y ∧ y ≤ w.ye ∧ w.xs / 8 ≤ x ∧ x ≤ w.xe / 8) → q'.ram y x = q.ram y x

/-- Under the default RAM_MODEL in POLL mode, a CLEAR leaves its fill byte in every RAM byte of the panel (R70, R180,
spec/95 V18). -/
def Obligations.ClearFillsThePanel : Prop :=
  ∀ (i : BlockInstance) (fill : Byte) (k : Nat) (q : Panel), i.params.busyWaitMode = .poll →
    ∀ y x, y < i.params.panelHeight → x < i.params.panelWidth / 8 →
      (RamModel.default.after i.params q (clearEvents i.params fill k)).ram y x = some fill

/-! ## Reset and invariants -/

/-- R290, R291: asserting the reset input gives every piece of the block's state its value of R42, drives RST High and
empties the trace, in any state; while the input is asserted, and when it is released, the block stands at those values
whatever the host does; a step that clears FAULT has the input asserted before or after it. What the host may do
meanwhile, and the latches' values, are the model's choice (log entries 5 and 12). -/
def Obligations.BlockResetRestoresResetValues : Prop :=
  (∀ (s : State) (rest : List HostAction), s.host = .resetInput true :: rest →
    ∃ t, step s = .next t ∧ t.resetInput = true ∧ AtReset t ∧ t.inst = s.inst)
  ∧ (∀ s t : State, s.resetInput = true → step s = .next t → AtReset t ∧ t.inst = s.inst
      ∧ (t.resetInput = false ↔ ∃ rest, s.host = .resetInput false :: rest)
      ∧ ∀ o rest, s.host = .read o 32 :: rest → t.hostData = s.hostData ++ [0#32])
  ∧ ∀ s t : State, step s = .next t → s.status.fault = true → t.status.fault = false →
      s.resetInput = true ∨ t.resetInput = true

/-- R42, R43: after reset the block is idle with every register 0 and RST High; an `OP` write of INIT is accepted, and
any other ends with an error code and no event. -/
def Obligations.FirstOpAfterResetMustBeInit : Prop :=
  State.reset.phase = .idle ∧ State.reset.trace = [] ∧ State.reset.rst = .high
  ∧ statusWord State.reset.status = 0#32
  ∧ ∀ (w : Word), ∃ t, step { State.reset with host := [wregOp w] } = .next t ∧ t.trace = []
      ∧ (w = 0x00000001#32 ∨ w = 0x00000011#32 → t.phase = .run)
      ∧ (w ≠ 0x00000001#32 → w ≠ 0x00000011#32 → t.phase = .idle ∧ t.status.err ≠ .ok)

/-- The reset state meets the invariant. -/
def Obligations.ResetMeetsInvariant : Prop := Inv State.reset

/-- Every step keeps the invariant: flags and phase agree, the sequencer is consistent, an accepted DRAW's arguments
are valid, memory stays canonical, RST is Low only in the reset pulse, an asserted reset input holds the block (R21,
R24, R33, R36, R37, R231, R290). -/
def Obligations.StepKeepsInvariant : Prop :=
  ∀ s t : State, Inv s → step s = .next t → Inv t

/-- From a good state a host that stays inside the defined interface never makes the machine stop: every step answers
a next state, and the rest of the script stays inside it (R52, R56). -/
def Obligations.GoodStateNeverStops : Prop :=
  ∀ s : State, Inv s → HostOk s → ∃ t, step s = .next t ∧ HostOk t

/-- R31, R62: no step changes the instance, its LUT ROMs and its other parameters. -/
def Obligations.NoStepChangesTheInstance : Prop :=
  ∀ s t : State, step s = .next t → t.inst = s.inst
end

