-- ==== Sys2Proof/Laws/Memory.lean ====
section
/-! SUPPORT. Bitmap memory: a read after a write, the canonical form, and the address list of R64. Every memory
operation keeps the canonical form, and equal contents are what reads say. -/

namespace Sys2Proof.Machine

/-- An address above a bound that may be absent. -/
abbrev aboveBound (lo : Option Nat) (a : Nat) : Prop := ∀ b, lo = some b → b < a

theorem Memory.risingFrom_cons {lo : Option Nat} {k : Nat} {v : Byte} {m : Memory} :
    Memory.risingFrom lo ((k, v) :: m) = true ↔
      aboveBound lo k ∧ v ≠ unlistedByte ∧ Memory.risingFrom (some k) m = true := by
  cases lo <;> simp [Memory.risingFrom, aboveBound, and_assoc]

/-- Entries of a rising list lie above its bound. -/
theorem Memory.risingFrom_mem {lo : Option Nat} {m : Memory} (h : Memory.risingFrom lo m = true) :
    ∀ c ∈ m, aboveBound lo c.1 := by
  induction m generalizing lo with
  | nil => simp
  | cons kv m ih =>
    obtain ⟨k, v⟩ := kv
    obtain ⟨h1, -, h3⟩ := Memory.risingFrom_cons.mp h
    intro c hc
    rcases List.mem_cons.mp hc with rfl | hc
    · exact h1
    · intro b hb
      exact (h1 b hb).trans (ih h3 c hc k rfl)

theorem Memory.risingFrom_entry {lo : Option Nat} {a : Nat} {v : Byte} {m : Memory} (ha : aboveBound lo a)
    (hm : Memory.risingFrom (some a) m = true) (hlo : Memory.risingFrom lo m = true) :
    Memory.risingFrom lo (Memory.entry a v ++ m) = true := by
  unfold Memory.entry
  split
  · simpa using hlo
  · exact Memory.risingFrom_cons.mpr ⟨ha, ‹_›, hm⟩

theorem Memory.risingFrom_weaken {lo lo' : Option Nat} {m : Memory} (h : Memory.risingFrom lo m = true)
    (hw : ∀ a, aboveBound lo a → aboveBound lo' a) : Memory.risingFrom lo' m = true := by
  cases m with
  | nil => rfl
  | cons kv m =>
    obtain ⟨h1, h2, h3⟩ := Memory.risingFrom_cons.mp h
    exact Memory.risingFrom_cons.mpr ⟨hw _ h1, h2, h3⟩

theorem Memory.write_risingFrom {lo : Option Nat} {m : Memory} {a : Nat} {v : Byte}
    (h : Memory.risingFrom lo m = true) (ha : aboveBound lo a) :
    Memory.risingFrom lo (Memory.write m a v) = true := by
  induction m generalizing lo with
  | nil => simpa [Memory.write] using Memory.risingFrom_entry (v := v) (m := []) ha rfl rfl
  | cons kw m ih =>
    obtain ⟨k, w⟩ := kw
    obtain ⟨h1, h2, h3⟩ := Memory.risingFrom_cons.mp h
    unfold Memory.write
    split
    · refine Memory.risingFrom_cons.mpr ⟨h1, h2, ih h3 ?_⟩
      intro b hb
      cases hb
      assumption
    · split
      · subst_vars
        exact Memory.risingFrom_entry ha h3 (Memory.risingFrom_weaken h3 fun x hx b hb =>
          (h1 b hb).trans (hx _ rfl))
      · refine Memory.risingFrom_entry ha (Memory.risingFrom_cons.mpr ⟨?_, h2, h3⟩) h
        intro b hb
        cases hb
        omega

/-- A write keeps the canonical form. -/
theorem Memory.write_wf {m : Memory} (h : m.wf = true) (a : Nat) (v : Byte) : (m.write a v).wf = true :=
  Memory.write_risingFrom h (by intro b hb; cases hb)

/-- A write of consecutive bytes keeps the canonical form. -/
theorem Memory.writeBytes_wf {m : Memory} (h : m.wf = true) (a : Nat) (vs : List Byte) :
    (m.writeBytes a vs).wf = true := by
  induction vs generalizing m a with
  | nil => exact h
  | cons v vs ih => exact ih (Memory.write_wf h a v) (a + 1)

theorem Memory.read_eq_unlisted {m : Memory} {a : Nat} (h : ∀ c ∈ m, c.1 ≠ a) : m.read a = unlistedByte := by
  induction m with
  | nil => rfl
  | cons kv m ih =>
    simp only [List.mem_cons, forall_eq_or_imp] at h
    simp only [Memory.read, if_neg h.1]
    exact ih h.2

theorem Memory.read_entry_append {m : Memory} {a : Nat} {v : Byte} (h : ∀ c ∈ m, c.1 ≠ a) :
    Memory.read (Memory.entry a v ++ m) a = v := by
  unfold Memory.entry
  split
  · subst_vars; simpa using Memory.read_eq_unlisted h
  · simp [Memory.read]

theorem Memory.read_entry_append_other {m : Memory} {a b : Nat} {v : Byte} (h : b ≠ a) :
    Memory.read (Memory.entry a v ++ m) b = m.read b := by
  unfold Memory.entry
  split
  · rfl
  · simp [Memory.read, h.symm]

/-- A read at another address does not see a write. -/
theorem Memory.read_write_other {m : Memory} {a b : Nat} {v : Byte} (h : b ≠ a) :
    (m.write a v).read b = m.read b := by
  induction m with
  | nil => simpa [Memory.write] using Memory.read_entry_append_other (m := []) (v := v) h
  | cons kw m ih =>
    obtain ⟨k, w⟩ := kw
    unfold Memory.write
    split
    · simp [Memory.read, ih]
    · split
      · subst_vars
        rw [Memory.read_entry_append_other h]
        simp [Memory.read, h.symm]
      · rw [Memory.read_entry_append_other h]

theorem Memory.read_write_same_from {lo : Option Nat} {m : Memory} {a : Nat} {v : Byte}
    (h : Memory.risingFrom lo m = true) : (m.write a v).read a = v := by
  induction m generalizing lo with
  | nil => simpa [Memory.write] using Memory.read_entry_append (m := []) (a := a) (v := v) (by simp)
  | cons kw m ih =>
    obtain ⟨k, w⟩ := kw
    obtain ⟨-, h2, h3⟩ := Memory.risingFrom_cons.mp h
    unfold Memory.write
    split
    · next hk =>
      simp only [Memory.read, if_neg (Nat.ne_of_lt hk)]
      exact ih h3
    · split
      · subst_vars
        refine Memory.read_entry_append fun c hc => ?_
        exact Nat.ne_of_gt (Memory.risingFrom_mem h3 c hc _ rfl)
      · refine Memory.read_entry_append fun c hc => ?_
        rcases List.mem_cons.mp hc with rfl | hc
        · simp only; omega
        · have := Memory.risingFrom_mem h3 c hc _ rfl
          omega

/-- A read of the written address sees the write. -/
theorem Memory.read_write_same {m : Memory} (h : m.wf = true) (a : Nat) (v : Byte) :
    (m.write a v).read a = v :=
  Memory.read_write_same_from h

/-- Bytes outside the written range are as before. -/
theorem Memory.read_writeBytes_other {m : Memory} {a b : Nat} {vs : List Byte}
    (h : b < a ∨ a + vs.length ≤ b) : (m.writeBytes a vs).read b = m.read b := by
  induction vs generalizing m a with
  | nil => rfl
  | cons v vs ih =>
    simp only [List.length_cons] at h
    rw [Memory.writeBytes, ih (by omega), Memory.read_write_other (by omega)]

/-- The k-th byte of a written range reads as the k-th byte written. -/
theorem Memory.read_writeBytes_same {m : Memory} (h : m.wf = true) {a k : Nat} {vs : List Byte}
    (hk : k < vs.length) : (m.writeBytes a vs).read (a + k) = vs[k] := by
  induction vs generalizing m a k with
  | nil => simp at hk
  | cons v vs ih =>
    cases k with
    | zero =>
      rw [Memory.writeBytes, Memory.read_writeBytes_other (by omega)]
      simpa using Memory.read_write_same h a v
    | succ k =>
      have := ih (Memory.write_wf h a v) (a := a + 1) (k := k) (by simpa using hk)
      simpa [Memory.writeBytes, Nat.add_assoc, Nat.add_comm 1 k] using this

theorem Memory.mem_entry {a : Nat} {v : Byte} {c : Host.Cell} (h : c ∈ Memory.entry a v) : c.1 = a := by
  unfold Memory.entry at h
  split at h <;> simp_all

/-- A write lists no new address but its own. -/
theorem Memory.mem_write {m : Memory} {a : Nat} {v : Byte} {c : Host.Cell} (h : c ∈ m.write a v) :
    c.1 = a ∨ c ∈ m := by
  induction m with
  | nil => exact .inl (Memory.mem_entry h)
  | cons kw m ih =>
    unfold Memory.write at h
    split at h
    · rcases List.mem_cons.mp h with rfl | h
      · exact .inr List.mem_cons_self
      · exact (ih h).imp_right (List.mem_cons_of_mem _)
    · split at h
      · rcases List.mem_append.mp h with h | h
        · exact .inl (Memory.mem_entry h)
        · exact .inr (List.mem_cons_of_mem _ h)
      · rcases List.mem_append.mp h with h | h
        · exact .inl (Memory.mem_entry h)
        · exact .inr h

/-- A range write lists no new address outside its range. -/
theorem Memory.mem_writeBytes {m : Memory} {a : Nat} {vs : List Byte} {c : Host.Cell}
    (h : c ∈ m.writeBytes a vs) : (a ≤ c.1 ∧ c.1 < a + vs.length) ∨ c ∈ m := by
  induction vs generalizing m a with
  | nil => exact .inr h
  | cons v vs ih =>
    rcases ih (a := a + 1) h with h | h
    · left; simp only [List.length_cons]; omega
    · rcases Memory.mem_write h with h | h
      · left; simp only [List.length_cons]; omega
      · exact .inr h

@[simp] theorem mem_insertAddr {t : List Nat} {a x : Nat} : x ∈ insertAddr t a ↔ x = a ∨ x ∈ t := by
  induction t with
  | nil => simp [insertAddr]
  | cons k t ih =>
    unfold insertAddr
    split
    · simp only [List.mem_cons, ih]; tauto
    · split
      · subst_vars; simp
      · simp

@[simp] theorem mem_insertAddrs {t : List Nat} {a n x : Nat} :
    x ∈ insertAddrs t a n ↔ (a ≤ x ∧ x < a + n) ∨ x ∈ t := by
  induction n generalizing t a with
  | zero => simp [insertAddrs]
  | succ n ih =>
    rw [insertAddrs, ih, mem_insertAddr]
    constructor
    · rintro (h | h | h)
      · left; omega
      · left; omega
      · exact .inr h
    · rintro (h | h)
      · by_cases hx : x = a
        · exact .inr (.inl hx)
        · left; omega
      · exact .inr (.inr h)

theorem insertAddr_rising {t : List Nat} (h : t.Pairwise (· < ·)) (a : Nat) :
    (insertAddr t a).Pairwise (· < ·) := by
  induction t with
  | nil => simp [insertAddr]
  | cons k t ih =>
    obtain ⟨h1, h2⟩ := List.pairwise_cons.mp h
    unfold insertAddr
    split
    · refine List.pairwise_cons.mpr ⟨fun x hx => ?_, ih h2⟩
      rcases mem_insertAddr.mp hx with rfl | hx
      · assumption
      · exact h1 x hx
    · split
      · exact h
      · refine List.pairwise_cons.mpr ⟨fun x hx => ?_, h⟩
        rcases List.mem_cons.mp hx with rfl | hx
        · omega
        · have := h1 x hx; omega

theorem insertAddrs_rising {t : List Nat} (h : t.Pairwise (· < ·)) (a n : Nat) :
    (insertAddrs t a n).Pairwise (· < ·) := by
  induction n generalizing t a with
  | zero => exact h
  | succ n ih => exact ih (insertAddr_rising h a) (a + 1)

end Sys2Proof.Machine
end

