-- ==== Sys2Proof/Laws/State.lean ====
section
/-! SUPPORT. One lemma per field and update of `State`, each true by unfolding the update once, so that no later
proof unfolds a record update. -/

namespace Sys2Proof.Machine

/-! ## `emit` -/

@[simp] theorem State.emit_inst (e : Event) (s : State) :
    (s.emit e).inst = s.inst := rfl
@[simp] theorem State.emit_phase (e : Event) (s : State) :
    (s.emit e).phase = s.phase := rfl
@[simp] theorem State.emit_sp (e : Event) (s : State) :
    (s.emit e).sp = s.sp := rfl
@[simp] theorem State.emit_status (e : Event) (s : State) :
    (s.emit e).status = s.status := rfl
@[simp] theorem State.emit_origin (e : Event) (s : State) :
    (s.emit e).origin = s.origin := rfl
@[simp] theorem State.emit_bmpsize (e : Event) (s : State) :
    (s.emit e).bmpsize = s.bmpsize := rfl
@[simp] theorem State.emit_bmpbase (e : Event) (s : State) :
    (s.emit e).bmpbase = s.bmpbase := rfl
@[simp] theorem State.emit_latches (e : Event) (s : State) :
    (s.emit e).latches = s.latches := rfl
@[simp] theorem State.emit_window (e : Event) (s : State) :
    (s.emit e).window = s.window := rfl
@[simp] theorem State.emit_pointer (e : Event) (s : State) :
    (s.emit e).pointer = s.pointer := rfl
@[simp] theorem State.emit_payload (e : Event) (s : State) :
    (s.emit e).payload = s.payload := rfl
@[simp] theorem State.emit_stream (e : Event) (s : State) :
    (s.emit e).stream = s.stream := rfl
@[simp] theorem State.emit_timer (e : Event) (s : State) :
    (s.emit e).timer = s.timer := rfl
@[simp] theorem State.emit_rst (e : Event) (s : State) :
    (s.emit e).rst = s.rst := rfl
@[simp] theorem State.emit_resetInput (e : Event) (s : State) :
    (s.emit e).resetInput = s.resetInput := rfl
@[simp] theorem State.emit_trace (e : Event) (s : State) :
    (s.emit e).trace = s.trace ++ [e] := rfl
@[simp] theorem State.emit_bitmap (e : Event) (s : State) :
    (s.emit e).bitmap = s.bitmap := rfl
@[simp] theorem State.emit_touched (e : Event) (s : State) :
    (s.emit e).touched = s.touched := rfl
@[simp] theorem State.emit_host (e : Event) (s : State) :
    (s.emit e).host = s.host := rfl
@[simp] theorem State.emit_hostData (e : Event) (s : State) :
    (s.emit e).hostData = s.hostData := rfl
@[simp] theorem State.emit_busScript (e : Event) (s : State) :
    (s.emit e).busScript = s.busScript := rfl
@[simp] theorem State.emit_busyScript (e : Event) (s : State) :
    (s.emit e).busyScript = s.busyScript := rfl
@[simp] theorem State.emit_draws (e : Event) (s : State) :
    (s.emit e).draws = s.draws := rfl

/-! ## The draws -/

@[simp] theorem State.takeResp_inst (s : State) :
    (s.takeResp).inst = s.inst := by unfold State.takeResp; split <;> rfl
@[simp] theorem State.takeResp_phase (s : State) :
    (s.takeResp).phase = s.phase := by unfold State.takeResp; split <;> rfl
@[simp] theorem State.takeResp_sp (s : State) :
    (s.takeResp).sp = s.sp := by unfold State.takeResp; split <;> rfl
@[simp] theorem State.takeResp_status (s : State) :
    (s.takeResp).status = s.status := by unfold State.takeResp; split <;> rfl
@[simp] theorem State.takeResp_origin (s : State) :
    (s.takeResp).origin = s.origin := by unfold State.takeResp; split <;> rfl
@[simp] theorem State.takeResp_bmpsize (s : State) :
    (s.takeResp).bmpsize = s.bmpsize := by unfold State.takeResp; split <;> rfl
@[simp] theorem State.takeResp_bmpbase (s : State) :
    (s.takeResp).bmpbase = s.bmpbase := by unfold State.takeResp; split <;> rfl
@[simp] theorem State.takeResp_latches (s : State) :
    (s.takeResp).latches = s.latches := by unfold State.takeResp; split <;> rfl
@[simp] theorem State.takeResp_window (s : State) :
    (s.takeResp).window = s.window := by unfold State.takeResp; split <;> rfl
@[simp] theorem State.takeResp_pointer (s : State) :
    (s.takeResp).pointer = s.pointer := by unfold State.takeResp; split <;> rfl
@[simp] theorem State.takeResp_payload (s : State) :
    (s.takeResp).payload = s.payload := by unfold State.takeResp; split <;> rfl
@[simp] theorem State.takeResp_stream (s : State) :
    (s.takeResp).stream = s.stream := by unfold State.takeResp; split <;> rfl
@[simp] theorem State.takeResp_timer (s : State) :
    (s.takeResp).timer = s.timer := by unfold State.takeResp; split <;> rfl
@[simp] theorem State.takeResp_rst (s : State) :
    (s.takeResp).rst = s.rst := by unfold State.takeResp; split <;> rfl
@[simp] theorem State.takeResp_resetInput (s : State) :
    (s.takeResp).resetInput = s.resetInput := by unfold State.takeResp; split <;> rfl
@[simp] theorem State.takeResp_trace (s : State) :
    (s.takeResp).trace = s.trace := by unfold State.takeResp; split <;> rfl
@[simp] theorem State.takeResp_bitmap (s : State) :
    (s.takeResp).bitmap = s.bitmap := by unfold State.takeResp; split <;> rfl
@[simp] theorem State.takeResp_touched (s : State) :
    (s.takeResp).touched = s.touched := by unfold State.takeResp; split <;> rfl
@[simp] theorem State.takeResp_host (s : State) :
    (s.takeResp).host = s.host := by unfold State.takeResp; split <;> rfl
@[simp] theorem State.takeResp_hostData (s : State) :
    (s.takeResp).hostData = s.hostData := by unfold State.takeResp; split <;> rfl
@[simp] theorem State.takeResp_busyScript (s : State) :
    (s.takeResp).busyScript = s.busyScript := by unfold State.takeResp; split <;> rfl

@[simp] theorem State.takeBusy_inst (s : State) :
    (s.takeBusy).inst = s.inst := by unfold State.takeBusy; split <;> rfl
@[simp] theorem State.takeBusy_phase (s : State) :
    (s.takeBusy).phase = s.phase := by unfold State.takeBusy; split <;> rfl
@[simp] theorem State.takeBusy_sp (s : State) :
    (s.takeBusy).sp = s.sp := by unfold State.takeBusy; split <;> rfl
@[simp] theorem State.takeBusy_status (s : State) :
    (s.takeBusy).status = s.status := by unfold State.takeBusy; split <;> rfl
@[simp] theorem State.takeBusy_origin (s : State) :
    (s.takeBusy).origin = s.origin := by unfold State.takeBusy; split <;> rfl
@[simp] theorem State.takeBusy_bmpsize (s : State) :
    (s.takeBusy).bmpsize = s.bmpsize := by unfold State.takeBusy; split <;> rfl
@[simp] theorem State.takeBusy_bmpbase (s : State) :
    (s.takeBusy).bmpbase = s.bmpbase := by unfold State.takeBusy; split <;> rfl
@[simp] theorem State.takeBusy_latches (s : State) :
    (s.takeBusy).latches = s.latches := by unfold State.takeBusy; split <;> rfl
@[simp] theorem State.takeBusy_window (s : State) :
    (s.takeBusy).window = s.window := by unfold State.takeBusy; split <;> rfl
@[simp] theorem State.takeBusy_pointer (s : State) :
    (s.takeBusy).pointer = s.pointer := by unfold State.takeBusy; split <;> rfl
@[simp] theorem State.takeBusy_payload (s : State) :
    (s.takeBusy).payload = s.payload := by unfold State.takeBusy; split <;> rfl
@[simp] theorem State.takeBusy_stream (s : State) :
    (s.takeBusy).stream = s.stream := by unfold State.takeBusy; split <;> rfl
@[simp] theorem State.takeBusy_timer (s : State) :
    (s.takeBusy).timer = s.timer := by unfold State.takeBusy; split <;> rfl
@[simp] theorem State.takeBusy_rst (s : State) :
    (s.takeBusy).rst = s.rst := by unfold State.takeBusy; split <;> rfl
@[simp] theorem State.takeBusy_resetInput (s : State) :
    (s.takeBusy).resetInput = s.resetInput := by unfold State.takeBusy; split <;> rfl
@[simp] theorem State.takeBusy_trace (s : State) :
    (s.takeBusy).trace = s.trace := by unfold State.takeBusy; split <;> rfl
@[simp] theorem State.takeBusy_bitmap (s : State) :
    (s.takeBusy).bitmap = s.bitmap := by unfold State.takeBusy; split <;> rfl
@[simp] theorem State.takeBusy_touched (s : State) :
    (s.takeBusy).touched = s.touched := by unfold State.takeBusy; split <;> rfl
@[simp] theorem State.takeBusy_host (s : State) :
    (s.takeBusy).host = s.host := by unfold State.takeBusy; split <;> rfl
@[simp] theorem State.takeBusy_hostData (s : State) :
    (s.takeBusy).hostData = s.hostData := by unfold State.takeBusy; split <;> rfl
@[simp] theorem State.takeBusy_busScript (s : State) :
    (s.takeBusy).busScript = s.busScript := by unfold State.takeBusy; split <;> rfl

/-! ## Ending an op -/

@[simp] theorem State.releaseLatches_inst (s : State) :
    (s.releaseLatches).inst = s.inst := rfl
@[simp] theorem State.releaseLatches_phase (s : State) :
    (s.releaseLatches).phase = s.phase := rfl
@[simp] theorem State.releaseLatches_sp (s : State) :
    (s.releaseLatches).sp = s.sp := rfl
@[simp] theorem State.releaseLatches_status (s : State) :
    (s.releaseLatches).status = s.status := rfl
@[simp] theorem State.releaseLatches_origin (s : State) :
    (s.releaseLatches).origin = s.origin := rfl
@[simp] theorem State.releaseLatches_bmpsize (s : State) :
    (s.releaseLatches).bmpsize = s.bmpsize := rfl
@[simp] theorem State.releaseLatches_bmpbase (s : State) :
    (s.releaseLatches).bmpbase = s.bmpbase := rfl
@[simp] theorem State.releaseLatches_latches (s : State) :
    (s.releaseLatches).latches = freeLatches s.draws := rfl
@[simp] theorem State.releaseLatches_window (s : State) :
    (s.releaseLatches).window = freeWindow s.draws := rfl
@[simp] theorem State.releaseLatches_pointer (s : State) :
    (s.releaseLatches).pointer = freePointer s.draws := rfl
@[simp] theorem State.releaseLatches_payload (s : State) :
    (s.releaseLatches).payload = [] := rfl
@[simp] theorem State.releaseLatches_stream (s : State) :
    (s.releaseLatches).stream = none := rfl
@[simp] theorem State.releaseLatches_timer (s : State) :
    (s.releaseLatches).timer = none := rfl
@[simp] theorem State.releaseLatches_rst (s : State) :
    (s.releaseLatches).rst = s.rst := rfl
@[simp] theorem State.releaseLatches_resetInput (s : State) :
    (s.releaseLatches).resetInput = s.resetInput := rfl
@[simp] theorem State.releaseLatches_trace (s : State) :
    (s.releaseLatches).trace = s.trace := rfl
@[simp] theorem State.releaseLatches_bitmap (s : State) :
    (s.releaseLatches).bitmap = s.bitmap := rfl
@[simp] theorem State.releaseLatches_touched (s : State) :
    (s.releaseLatches).touched = s.touched := rfl
@[simp] theorem State.releaseLatches_host (s : State) :
    (s.releaseLatches).host = s.host := rfl
@[simp] theorem State.releaseLatches_hostData (s : State) :
    (s.releaseLatches).hostData = s.hostData := rfl
@[simp] theorem State.releaseLatches_busScript (s : State) :
    (s.releaseLatches).busScript = s.busScript := rfl
@[simp] theorem State.releaseLatches_busyScript (s : State) :
    (s.releaseLatches).busyScript = s.busyScript := rfl
@[simp] theorem State.releaseLatches_draws (s : State) :
    (s.releaseLatches).draws = s.draws + 1 := rfl

@[simp] theorem State.endWith_inst (code : ErrCode) (s : State) :
    (s.endWith code).inst = s.inst := rfl
@[simp] theorem State.endWith_phase (code : ErrCode) (s : State) :
    (s.endWith code).phase = phaseAfterEnd code s.phase := rfl
@[simp] theorem State.endWith_sp (code : ErrCode) (s : State) :
    (s.endWith code).sp = 0 := rfl
@[simp] theorem State.endWith_status (code : ErrCode) (s : State) :
    (s.endWith code).status = s.status.ended code := rfl
@[simp] theorem State.endWith_origin (code : ErrCode) (s : State) :
    (s.endWith code).origin = s.origin := rfl
@[simp] theorem State.endWith_bmpsize (code : ErrCode) (s : State) :
    (s.endWith code).bmpsize = s.bmpsize := rfl
@[simp] theorem State.endWith_bmpbase (code : ErrCode) (s : State) :
    (s.endWith code).bmpbase = s.bmpbase := rfl
@[simp] theorem State.endWith_latches (code : ErrCode) (s : State) :
    (s.endWith code).latches = s.latches := rfl
@[simp] theorem State.endWith_window (code : ErrCode) (s : State) :
    (s.endWith code).window = s.window := rfl
@[simp] theorem State.endWith_pointer (code : ErrCode) (s : State) :
    (s.endWith code).pointer = s.pointer := rfl
@[simp] theorem State.endWith_payload (code : ErrCode) (s : State) :
    (s.endWith code).payload = s.payload := rfl
@[simp] theorem State.endWith_stream (code : ErrCode) (s : State) :
    (s.endWith code).stream = s.stream := rfl
@[simp] theorem State.endWith_timer (code : ErrCode) (s : State) :
    (s.endWith code).timer = s.timer := rfl
@[simp] theorem State.endWith_rst (code : ErrCode) (s : State) :
    (s.endWith code).rst = s.rst := rfl
@[simp] theorem State.endWith_resetInput (code : ErrCode) (s : State) :
    (s.endWith code).resetInput = s.resetInput := rfl
@[simp] theorem State.endWith_trace (code : ErrCode) (s : State) :
    (s.endWith code).trace = s.trace := rfl
@[simp] theorem State.endWith_bitmap (code : ErrCode) (s : State) :
    (s.endWith code).bitmap = s.bitmap := rfl
@[simp] theorem State.endWith_touched (code : ErrCode) (s : State) :
    (s.endWith code).touched = s.touched := rfl
@[simp] theorem State.endWith_host (code : ErrCode) (s : State) :
    (s.endWith code).host = s.host := rfl
@[simp] theorem State.endWith_hostData (code : ErrCode) (s : State) :
    (s.endWith code).hostData = s.hostData := rfl
@[simp] theorem State.endWith_busScript (code : ErrCode) (s : State) :
    (s.endWith code).busScript = s.busScript := rfl
@[simp] theorem State.endWith_busyScript (code : ErrCode) (s : State) :
    (s.endWith code).busyScript = s.busyScript := rfl
@[simp] theorem State.endWith_draws (code : ErrCode) (s : State) :
    (s.endWith code).draws = s.draws := rfl

@[simp] theorem State.endOp_inst (code : ErrCode) (s : State) :
    (s.endOp code).inst = s.inst := rfl
@[simp] theorem State.endOp_phase (code : ErrCode) (s : State) :
    (s.endOp code).phase = phaseAfterEnd code s.phase := rfl
@[simp] theorem State.endOp_sp (code : ErrCode) (s : State) :
    (s.endOp code).sp = 0 := rfl
@[simp] theorem State.endOp_status (code : ErrCode) (s : State) :
    (s.endOp code).status = s.status.ended code := rfl
@[simp] theorem State.endOp_origin (code : ErrCode) (s : State) :
    (s.endOp code).origin = s.origin := rfl
@[simp] theorem State.endOp_bmpsize (code : ErrCode) (s : State) :
    (s.endOp code).bmpsize = s.bmpsize := rfl
@[simp] theorem State.endOp_bmpbase (code : ErrCode) (s : State) :
    (s.endOp code).bmpbase = s.bmpbase := rfl
@[simp] theorem State.endOp_latches (code : ErrCode) (s : State) :
    (s.endOp code).latches = freeLatches s.draws := rfl
@[simp] theorem State.endOp_window (code : ErrCode) (s : State) :
    (s.endOp code).window = freeWindow s.draws := rfl
@[simp] theorem State.endOp_pointer (code : ErrCode) (s : State) :
    (s.endOp code).pointer = freePointer s.draws := rfl
@[simp] theorem State.endOp_payload (code : ErrCode) (s : State) :
    (s.endOp code).payload = [] := rfl
@[simp] theorem State.endOp_stream (code : ErrCode) (s : State) :
    (s.endOp code).stream = none := rfl
@[simp] theorem State.endOp_timer (code : ErrCode) (s : State) :
    (s.endOp code).timer = none := rfl
@[simp] theorem State.endOp_rst (code : ErrCode) (s : State) :
    (s.endOp code).rst = s.rst := rfl
@[simp] theorem State.endOp_resetInput (code : ErrCode) (s : State) :
    (s.endOp code).resetInput = s.resetInput := rfl
@[simp] theorem State.endOp_trace (code : ErrCode) (s : State) :
    (s.endOp code).trace = s.trace := rfl
@[simp] theorem State.endOp_bitmap (code : ErrCode) (s : State) :
    (s.endOp code).bitmap = s.bitmap := rfl
@[simp] theorem State.endOp_touched (code : ErrCode) (s : State) :
    (s.endOp code).touched = s.touched := rfl
@[simp] theorem State.endOp_host (code : ErrCode) (s : State) :
    (s.endOp code).host = s.host := rfl
@[simp] theorem State.endOp_hostData (code : ErrCode) (s : State) :
    (s.endOp code).hostData = s.hostData := rfl
@[simp] theorem State.endOp_busScript (code : ErrCode) (s : State) :
    (s.endOp code).busScript = s.busScript := rfl
@[simp] theorem State.endOp_busyScript (code : ErrCode) (s : State) :
    (s.endOp code).busyScript = s.busyScript := rfl
@[simp] theorem State.endOp_draws (code : ErrCode) (s : State) :
    (s.endOp code).draws = s.draws + 1 := rfl

@[simp] theorem State.raiseTransportFailure_inst (s : State) :
    (s.raiseTransportFailure).inst = s.inst := rfl
@[simp] theorem State.raiseTransportFailure_phase (s : State) :
    (s.raiseTransportFailure).phase = .fault := rfl
@[simp] theorem State.raiseTransportFailure_sp (s : State) :
    (s.raiseTransportFailure).sp = 0 := rfl
@[simp] theorem State.raiseTransportFailure_status (s : State) :
    (s.raiseTransportFailure).status = s.status.ended .transportFailure := rfl
@[simp] theorem State.raiseTransportFailure_origin (s : State) :
    (s.raiseTransportFailure).origin = s.origin := rfl
@[simp] theorem State.raiseTransportFailure_bmpsize (s : State) :
    (s.raiseTransportFailure).bmpsize = s.bmpsize := rfl
@[simp] theorem State.raiseTransportFailure_bmpbase (s : State) :
    (s.raiseTransportFailure).bmpbase = s.bmpbase := rfl
@[simp] theorem State.raiseTransportFailure_latches (s : State) :
    (s.raiseTransportFailure).latches = freeLatches s.draws := rfl
@[simp] theorem State.raiseTransportFailure_window (s : State) :
    (s.raiseTransportFailure).window = freeWindow s.draws := rfl
@[simp] theorem State.raiseTransportFailure_pointer (s : State) :
    (s.raiseTransportFailure).pointer = freePointer s.draws := rfl
@[simp] theorem State.raiseTransportFailure_payload (s : State) :
    (s.raiseTransportFailure).payload = [] := rfl
@[simp] theorem State.raiseTransportFailure_stream (s : State) :
    (s.raiseTransportFailure).stream = none := rfl
@[simp] theorem State.raiseTransportFailure_timer (s : State) :
    (s.raiseTransportFailure).timer = none := rfl
@[simp] theorem State.raiseTransportFailure_rst (s : State) :
    (s.raiseTransportFailure).rst = s.rst := rfl
@[simp] theorem State.raiseTransportFailure_resetInput (s : State) :
    (s.raiseTransportFailure).resetInput = s.resetInput := rfl
@[simp] theorem State.raiseTransportFailure_trace (s : State) :
    (s.raiseTransportFailure).trace = s.trace := rfl
@[simp] theorem State.raiseTransportFailure_bitmap (s : State) :
    (s.raiseTransportFailure).bitmap = s.bitmap := rfl
@[simp] theorem State.raiseTransportFailure_touched (s : State) :
    (s.raiseTransportFailure).touched = s.touched := rfl
@[simp] theorem State.raiseTransportFailure_host (s : State) :
    (s.raiseTransportFailure).host = s.host := rfl
@[simp] theorem State.raiseTransportFailure_hostData (s : State) :
    (s.raiseTransportFailure).hostData = s.hostData := rfl
@[simp] theorem State.raiseTransportFailure_busScript (s : State) :
    (s.raiseTransportFailure).busScript = s.busScript := rfl
@[simp] theorem State.raiseTransportFailure_busyScript (s : State) :
    (s.raiseTransportFailure).busyScript = s.busyScript := rfl
@[simp] theorem State.raiseTransportFailure_draws (s : State) :
    (s.raiseTransportFailure).draws = s.draws + 1 := rfl

@[simp] theorem State.complete_inst (s : State) :
    (s.complete).inst = s.inst := rfl
@[simp] theorem State.complete_phase (s : State) :
    (s.complete).phase = phaseAfterEnd .ok s.phase := rfl
@[simp] theorem State.complete_sp (s : State) :
    (s.complete).sp = 0 := rfl
@[simp] theorem State.complete_status (s : State) :
    (s.complete).status = (s.status.opDone s.latches).ended .ok := rfl
@[simp] theorem State.complete_origin (s : State) :
    (s.complete).origin = s.origin := rfl
@[simp] theorem State.complete_bmpsize (s : State) :
    (s.complete).bmpsize = s.bmpsize := rfl
@[simp] theorem State.complete_bmpbase (s : State) :
    (s.complete).bmpbase = s.bmpbase := rfl
@[simp] theorem State.complete_latches (s : State) :
    (s.complete).latches = freeLatches s.draws := rfl
@[simp] theorem State.complete_window (s : State) :
    (s.complete).window = freeWindow s.draws := rfl
@[simp] theorem State.complete_pointer (s : State) :
    (s.complete).pointer = freePointer s.draws := rfl
@[simp] theorem State.complete_payload (s : State) :
    (s.complete).payload = [] := rfl
@[simp] theorem State.complete_stream (s : State) :
    (s.complete).stream = none := rfl
@[simp] theorem State.complete_timer (s : State) :
    (s.complete).timer = none := rfl
@[simp] theorem State.complete_rst (s : State) :
    (s.complete).rst = s.rst := rfl
@[simp] theorem State.complete_resetInput (s : State) :
    (s.complete).resetInput = s.resetInput := rfl
@[simp] theorem State.complete_trace (s : State) :
    (s.complete).trace = s.trace := rfl
@[simp] theorem State.complete_bitmap (s : State) :
    (s.complete).bitmap = s.bitmap := rfl
@[simp] theorem State.complete_touched (s : State) :
    (s.complete).touched = s.touched := rfl
@[simp] theorem State.complete_host (s : State) :
    (s.complete).host = s.host := rfl
@[simp] theorem State.complete_hostData (s : State) :
    (s.complete).hostData = s.hostData := rfl
@[simp] theorem State.complete_busScript (s : State) :
    (s.complete).busScript = s.busScript := rfl
@[simp] theorem State.complete_busyScript (s : State) :
    (s.complete).busyScript = s.busyScript := rfl
@[simp] theorem State.complete_draws (s : State) :
    (s.complete).draws = s.draws + 1 := rfl

/-! ## `advance`: what it never changes -/

@[simp] theorem State.advance_inst (s : State) :
    (s.advance).inst = s.inst := by unfold State.advance; split <;> rfl
@[simp] theorem State.advance_origin (s : State) :
    (s.advance).origin = s.origin := by unfold State.advance; split <;> rfl
@[simp] theorem State.advance_bmpsize (s : State) :
    (s.advance).bmpsize = s.bmpsize := by unfold State.advance; split <;> rfl
@[simp] theorem State.advance_bmpbase (s : State) :
    (s.advance).bmpbase = s.bmpbase := by unfold State.advance; split <;> rfl
@[simp] theorem State.advance_rst (s : State) :
    (s.advance).rst = s.rst := by unfold State.advance; split <;> rfl
@[simp] theorem State.advance_resetInput (s : State) :
    (s.advance).resetInput = s.resetInput := by unfold State.advance; split <;> rfl
@[simp] theorem State.advance_trace (s : State) :
    (s.advance).trace = s.trace := by unfold State.advance; split <;> rfl
@[simp] theorem State.advance_bitmap (s : State) :
    (s.advance).bitmap = s.bitmap := by unfold State.advance; split <;> rfl
@[simp] theorem State.advance_touched (s : State) :
    (s.advance).touched = s.touched := by unfold State.advance; split <;> rfl
@[simp] theorem State.advance_host (s : State) :
    (s.advance).host = s.host := by unfold State.advance; split <;> rfl
@[simp] theorem State.advance_hostData (s : State) :
    (s.advance).hostData = s.hostData := by unfold State.advance; split <;> rfl
@[simp] theorem State.advance_busScript (s : State) :
    (s.advance).busScript = s.busScript := by unfold State.advance; split <;> rfl
@[simp] theorem State.advance_busyScript (s : State) :
    (s.advance).busyScript = s.busyScript := by unfold State.advance; split <;> rfl

/-! ## Opening a sub-sequence: what it never changes -/

@[simp] theorem State.enterSubsequence_inst (c : CmdName) (s : State) :
    (s.enterSubsequence c).inst = s.inst := by cases c <;> rfl
@[simp] theorem State.enterSubsequence_phase (c : CmdName) (s : State) :
    (s.enterSubsequence c).phase = s.phase := by cases c <;> rfl
@[simp] theorem State.enterSubsequence_sp (c : CmdName) (s : State) :
    (s.enterSubsequence c).sp = s.sp := by cases c <;> rfl
@[simp] theorem State.enterSubsequence_status (c : CmdName) (s : State) :
    (s.enterSubsequence c).status = s.status := by cases c <;> rfl
@[simp] theorem State.enterSubsequence_origin (c : CmdName) (s : State) :
    (s.enterSubsequence c).origin = s.origin := by cases c <;> rfl
@[simp] theorem State.enterSubsequence_bmpsize (c : CmdName) (s : State) :
    (s.enterSubsequence c).bmpsize = s.bmpsize := by cases c <;> rfl
@[simp] theorem State.enterSubsequence_bmpbase (c : CmdName) (s : State) :
    (s.enterSubsequence c).bmpbase = s.bmpbase := by cases c <;> rfl
@[simp] theorem State.enterSubsequence_latches (c : CmdName) (s : State) :
    (s.enterSubsequence c).latches = s.latches := by cases c <;> rfl
@[simp] theorem State.enterSubsequence_payload (c : CmdName) (s : State) :
    (s.enterSubsequence c).payload = s.payload := by cases c <;> rfl
@[simp] theorem State.enterSubsequence_stream (c : CmdName) (s : State) :
    (s.enterSubsequence c).stream = s.stream := by cases c <;> rfl
@[simp] theorem State.enterSubsequence_timer (c : CmdName) (s : State) :
    (s.enterSubsequence c).timer = s.timer := by cases c <;> rfl
@[simp] theorem State.enterSubsequence_rst (c : CmdName) (s : State) :
    (s.enterSubsequence c).rst = s.rst := by cases c <;> rfl
@[simp] theorem State.enterSubsequence_resetInput (c : CmdName) (s : State) :
    (s.enterSubsequence c).resetInput = s.resetInput := by cases c <;> rfl
@[simp] theorem State.enterSubsequence_trace (c : CmdName) (s : State) :
    (s.enterSubsequence c).trace = s.trace := by cases c <;> rfl
@[simp] theorem State.enterSubsequence_bitmap (c : CmdName) (s : State) :
    (s.enterSubsequence c).bitmap = s.bitmap := by cases c <;> rfl
@[simp] theorem State.enterSubsequence_touched (c : CmdName) (s : State) :
    (s.enterSubsequence c).touched = s.touched := by cases c <;> rfl
@[simp] theorem State.enterSubsequence_host (c : CmdName) (s : State) :
    (s.enterSubsequence c).host = s.host := by cases c <;> rfl
@[simp] theorem State.enterSubsequence_hostData (c : CmdName) (s : State) :
    (s.enterSubsequence c).hostData = s.hostData := by cases c <;> rfl
@[simp] theorem State.enterSubsequence_busScript (c : CmdName) (s : State) :
    (s.enterSubsequence c).busScript = s.busScript := by cases c <;> rfl
@[simp] theorem State.enterSubsequence_busyScript (c : CmdName) (s : State) :
    (s.enterSubsequence c).busyScript = s.busyScript := by cases c <;> rfl
@[simp] theorem State.enterSubsequence_draws (c : CmdName) (s : State) :
    (s.enterSubsequence c).draws = s.draws := by cases c <;> rfl

/-! ## Admission -/

@[simp] theorem State.latch_inst (op : OpCode) (mode : LutMode) (fill : Byte) (s : State) :
    (s.latch op mode fill).inst = s.inst := rfl
@[simp] theorem State.latch_phase (op : OpCode) (mode : LutMode) (fill : Byte) (s : State) :
    (s.latch op mode fill).phase = s.phase := rfl
@[simp] theorem State.latch_sp (op : OpCode) (mode : LutMode) (fill : Byte) (s : State) :
    (s.latch op mode fill).sp = s.sp := rfl
@[simp] theorem State.latch_status (op : OpCode) (mode : LutMode) (fill : Byte) (s : State) :
    (s.latch op mode fill).status = s.status := rfl
@[simp] theorem State.latch_origin (op : OpCode) (mode : LutMode) (fill : Byte) (s : State) :
    (s.latch op mode fill).origin = s.origin := rfl
@[simp] theorem State.latch_bmpsize (op : OpCode) (mode : LutMode) (fill : Byte) (s : State) :
    (s.latch op mode fill).bmpsize = s.bmpsize := rfl
@[simp] theorem State.latch_bmpbase (op : OpCode) (mode : LutMode) (fill : Byte) (s : State) :
    (s.latch op mode fill).bmpbase = s.bmpbase := rfl
@[simp] theorem State.latch_latches (op : OpCode) (mode : LutMode) (fill : Byte) (s : State) :
    (s.latch op mode fill).latches = ⟨op, mode, fill, lowHalf s.origin, highHalf s.origin, lowHalf s.bmpsize,
      highHalf s.bmpsize, s.bmpbase⟩ := rfl
@[simp] theorem State.latch_window (op : OpCode) (mode : LutMode) (fill : Byte) (s : State) :
    (s.latch op mode fill).window = s.window := rfl
@[simp] theorem State.latch_pointer (op : OpCode) (mode : LutMode) (fill : Byte) (s : State) :
    (s.latch op mode fill).pointer = s.pointer := rfl
@[simp] theorem State.latch_payload (op : OpCode) (mode : LutMode) (fill : Byte) (s : State) :
    (s.latch op mode fill).payload = s.payload := rfl
@[simp] theorem State.latch_stream (op : OpCode) (mode : LutMode) (fill : Byte) (s : State) :
    (s.latch op mode fill).stream = s.stream := rfl
@[simp] theorem State.latch_timer (op : OpCode) (mode : LutMode) (fill : Byte) (s : State) :
    (s.latch op mode fill).timer = s.timer := rfl
@[simp] theorem State.latch_rst (op : OpCode) (mode : LutMode) (fill : Byte) (s : State) :
    (s.latch op mode fill).rst = s.rst := rfl
@[simp] theorem State.latch_resetInput (op : OpCode) (mode : LutMode) (fill : Byte) (s : State) :
    (s.latch op mode fill).resetInput = s.resetInput := rfl
@[simp] theorem State.latch_trace (op : OpCode) (mode : LutMode) (fill : Byte) (s : State) :
    (s.latch op mode fill).trace = s.trace := rfl
@[simp] theorem State.latch_bitmap (op : OpCode) (mode : LutMode) (fill : Byte) (s : State) :
    (s.latch op mode fill).bitmap = s.bitmap := rfl
@[simp] theorem State.latch_touched (op : OpCode) (mode : LutMode) (fill : Byte) (s : State) :
    (s.latch op mode fill).touched = s.touched := rfl
@[simp] theorem State.latch_host (op : OpCode) (mode : LutMode) (fill : Byte) (s : State) :
    (s.latch op mode fill).host = s.host := rfl
@[simp] theorem State.latch_hostData (op : OpCode) (mode : LutMode) (fill : Byte) (s : State) :
    (s.latch op mode fill).hostData = s.hostData := rfl
@[simp] theorem State.latch_busScript (op : OpCode) (mode : LutMode) (fill : Byte) (s : State) :
    (s.latch op mode fill).busScript = s.busScript := rfl
@[simp] theorem State.latch_busyScript (op : OpCode) (mode : LutMode) (fill : Byte) (s : State) :
    (s.latch op mode fill).busyScript = s.busyScript := rfl
@[simp] theorem State.latch_draws (op : OpCode) (mode : LutMode) (fill : Byte) (s : State) :
    (s.latch op mode fill).draws = s.draws := rfl

@[simp] theorem State.accept_inst (op : OpCode) (s : State) :
    (s.accept op).inst = s.inst := rfl
@[simp] theorem State.accept_phase (op : OpCode) (s : State) :
    (s.accept op).phase = .run := rfl
@[simp] theorem State.accept_sp (op : OpCode) (s : State) :
    (s.accept op).sp = 0 := rfl
@[simp] theorem State.accept_status (op : OpCode) (s : State) :
    (s.accept op).status = s.status.accept op := rfl
@[simp] theorem State.accept_origin (op : OpCode) (s : State) :
    (s.accept op).origin = s.origin := rfl
@[simp] theorem State.accept_bmpsize (op : OpCode) (s : State) :
    (s.accept op).bmpsize = s.bmpsize := rfl
@[simp] theorem State.accept_bmpbase (op : OpCode) (s : State) :
    (s.accept op).bmpbase = s.bmpbase := rfl
@[simp] theorem State.accept_latches (op : OpCode) (s : State) :
    (s.accept op).latches = s.latches := rfl
@[simp] theorem State.accept_window (op : OpCode) (s : State) :
    (s.accept op).window = s.window := rfl
@[simp] theorem State.accept_pointer (op : OpCode) (s : State) :
    (s.accept op).pointer = s.pointer := rfl
@[simp] theorem State.accept_payload (op : OpCode) (s : State) :
    (s.accept op).payload = s.payload := rfl
@[simp] theorem State.accept_stream (op : OpCode) (s : State) :
    (s.accept op).stream = s.stream := rfl
@[simp] theorem State.accept_timer (op : OpCode) (s : State) :
    (s.accept op).timer = s.timer := rfl
@[simp] theorem State.accept_rst (op : OpCode) (s : State) :
    (s.accept op).rst = s.rst := rfl
@[simp] theorem State.accept_resetInput (op : OpCode) (s : State) :
    (s.accept op).resetInput = s.resetInput := rfl
@[simp] theorem State.accept_trace (op : OpCode) (s : State) :
    (s.accept op).trace = s.trace := rfl
@[simp] theorem State.accept_bitmap (op : OpCode) (s : State) :
    (s.accept op).bitmap = s.bitmap := rfl
@[simp] theorem State.accept_touched (op : OpCode) (s : State) :
    (s.accept op).touched = touchedAtAccept s.params s.touched := rfl
@[simp] theorem State.accept_host (op : OpCode) (s : State) :
    (s.accept op).host = s.host := rfl
@[simp] theorem State.accept_hostData (op : OpCode) (s : State) :
    (s.accept op).hostData = s.hostData := rfl
@[simp] theorem State.accept_busScript (op : OpCode) (s : State) :
    (s.accept op).busScript = s.busScript := rfl
@[simp] theorem State.accept_busyScript (op : OpCode) (s : State) :
    (s.accept op).busyScript = s.busyScript := rfl
@[simp] theorem State.accept_draws (op : OpCode) (s : State) :
    (s.accept op).draws = s.draws := rfl

@[simp] theorem State.reject_inst (s : State) :
    (s.reject).inst = s.inst := rfl
@[simp] theorem State.reject_phase (s : State) :
    (s.reject).phase = s.phase := rfl
@[simp] theorem State.reject_sp (s : State) :
    (s.reject).sp = s.sp := rfl
@[simp] theorem State.reject_status (s : State) :
    (s.reject).status = s.status.setRej true := rfl
@[simp] theorem State.reject_origin (s : State) :
    (s.reject).origin = s.origin := rfl
@[simp] theorem State.reject_bmpsize (s : State) :
    (s.reject).bmpsize = s.bmpsize := rfl
@[simp] theorem State.reject_bmpbase (s : State) :
    (s.reject).bmpbase = s.bmpbase := rfl
@[simp] theorem State.reject_latches (s : State) :
    (s.reject).latches = s.latches := rfl
@[simp] theorem State.reject_window (s : State) :
    (s.reject).window = s.window := rfl
@[simp] theorem State.reject_pointer (s : State) :
    (s.reject).pointer = s.pointer := rfl
@[simp] theorem State.reject_payload (s : State) :
    (s.reject).payload = s.payload := rfl
@[simp] theorem State.reject_stream (s : State) :
    (s.reject).stream = s.stream := rfl
@[simp] theorem State.reject_timer (s : State) :
    (s.reject).timer = s.timer := rfl
@[simp] theorem State.reject_rst (s : State) :
    (s.reject).rst = s.rst := rfl
@[simp] theorem State.reject_resetInput (s : State) :
    (s.reject).resetInput = s.resetInput := rfl
@[simp] theorem State.reject_trace (s : State) :
    (s.reject).trace = s.trace := rfl
@[simp] theorem State.reject_bitmap (s : State) :
    (s.reject).bitmap = s.bitmap := rfl
@[simp] theorem State.reject_touched (s : State) :
    (s.reject).touched = s.touched := rfl
@[simp] theorem State.reject_host (s : State) :
    (s.reject).host = s.host := rfl
@[simp] theorem State.reject_hostData (s : State) :
    (s.reject).hostData = s.hostData := rfl
@[simp] theorem State.reject_busScript (s : State) :
    (s.reject).busScript = s.busScript := rfl
@[simp] theorem State.reject_busyScript (s : State) :
    (s.reject).busyScript = s.busyScript := rfl
@[simp] theorem State.reject_draws (s : State) :
    (s.reject).draws = s.draws := rfl

@[simp] theorem State.clearRej_inst (s : State) :
    (s.clearRej).inst = s.inst := rfl
@[simp] theorem State.clearRej_phase (s : State) :
    (s.clearRej).phase = s.phase := rfl
@[simp] theorem State.clearRej_sp (s : State) :
    (s.clearRej).sp = s.sp := rfl
@[simp] theorem State.clearRej_status (s : State) :
    (s.clearRej).status = s.status.setRej false := rfl
@[simp] theorem State.clearRej_origin (s : State) :
    (s.clearRej).origin = s.origin := rfl
@[simp] theorem State.clearRej_bmpsize (s : State) :
    (s.clearRej).bmpsize = s.bmpsize := rfl
@[simp] theorem State.clearRej_bmpbase (s : State) :
    (s.clearRej).bmpbase = s.bmpbase := rfl
@[simp] theorem State.clearRej_latches (s : State) :
    (s.clearRej).latches = s.latches := rfl
@[simp] theorem State.clearRej_window (s : State) :
    (s.clearRej).window = s.window := rfl
@[simp] theorem State.clearRej_pointer (s : State) :
    (s.clearRej).pointer = s.pointer := rfl
@[simp] theorem State.clearRej_payload (s : State) :
    (s.clearRej).payload = s.payload := rfl
@[simp] theorem State.clearRej_stream (s : State) :
    (s.clearRej).stream = s.stream := rfl
@[simp] theorem State.clearRej_timer (s : State) :
    (s.clearRej).timer = s.timer := rfl
@[simp] theorem State.clearRej_rst (s : State) :
    (s.clearRej).rst = s.rst := rfl
@[simp] theorem State.clearRej_resetInput (s : State) :
    (s.clearRej).resetInput = s.resetInput := rfl
@[simp] theorem State.clearRej_trace (s : State) :
    (s.clearRej).trace = s.trace := rfl
@[simp] theorem State.clearRej_bitmap (s : State) :
    (s.clearRej).bitmap = s.bitmap := rfl
@[simp] theorem State.clearRej_touched (s : State) :
    (s.clearRej).touched = s.touched := rfl
@[simp] theorem State.clearRej_host (s : State) :
    (s.clearRej).host = s.host := rfl
@[simp] theorem State.clearRej_hostData (s : State) :
    (s.clearRej).hostData = s.hostData := rfl
@[simp] theorem State.clearRej_busScript (s : State) :
    (s.clearRej).busScript = s.busScript := rfl
@[simp] theorem State.clearRej_busyScript (s : State) :
    (s.clearRej).busyScript = s.busyScript := rfl
@[simp] theorem State.clearRej_draws (s : State) :
    (s.clearRej).draws = s.draws := rfl

/-! ## Block reset (R290, R42) -/

@[simp] theorem State.blockReset_inst (s : State) :
    (s.blockReset).inst = s.inst := rfl
@[simp] theorem State.blockReset_phase (s : State) :
    (s.blockReset).phase = .idle := rfl
@[simp] theorem State.blockReset_sp (s : State) :
    (s.blockReset).sp = 0 := rfl
@[simp] theorem State.blockReset_status (s : State) :
    (s.blockReset).status = Status.reset := rfl
@[simp] theorem State.blockReset_origin (s : State) :
    (s.blockReset).origin = 0#32 := rfl
@[simp] theorem State.blockReset_bmpsize (s : State) :
    (s.blockReset).bmpsize = 0#32 := rfl
@[simp] theorem State.blockReset_bmpbase (s : State) :
    (s.blockReset).bmpbase = 0#32 := rfl
@[simp] theorem State.blockReset_latches (s : State) :
    (s.blockReset).latches = Latches.reset := rfl
@[simp] theorem State.blockReset_window (s : State) :
    (s.blockReset).window = ⟨0, 0, 0, 0⟩ := rfl
@[simp] theorem State.blockReset_pointer (s : State) :
    (s.blockReset).pointer = ⟨0, 0⟩ := rfl
@[simp] theorem State.blockReset_payload (s : State) :
    (s.blockReset).payload = [] := rfl
@[simp] theorem State.blockReset_stream (s : State) :
    (s.blockReset).stream = none := rfl
@[simp] theorem State.blockReset_timer (s : State) :
    (s.blockReset).timer = none := rfl
@[simp] theorem State.blockReset_rst (s : State) :
    (s.blockReset).rst = .high := rfl
@[simp] theorem State.blockReset_resetInput (s : State) :
    (s.blockReset).resetInput = s.resetInput := rfl
@[simp] theorem State.blockReset_trace (s : State) :
    (s.blockReset).trace = [] := rfl
@[simp] theorem State.blockReset_bitmap (s : State) :
    (s.blockReset).bitmap = s.bitmap := rfl
@[simp] theorem State.blockReset_touched (s : State) :
    (s.blockReset).touched = s.touched := rfl
@[simp] theorem State.blockReset_host (s : State) :
    (s.blockReset).host = s.host := rfl
@[simp] theorem State.blockReset_hostData (s : State) :
    (s.blockReset).hostData = s.hostData := rfl
@[simp] theorem State.blockReset_busScript (s : State) :
    (s.blockReset).busScript = s.busScript := rfl
@[simp] theorem State.blockReset_busyScript (s : State) :
    (s.blockReset).busyScript = s.busyScript := rfl
@[simp] theorem State.blockReset_draws (s : State) :
    (s.blockReset).draws = s.draws := rfl

@[simp] theorem State.holdReset_inst (s : State) :
    (s.holdReset).inst = s.inst := by unfold State.holdReset; split <;> rfl
@[simp] theorem State.holdReset_resetInput (s : State) :
    (s.holdReset).resetInput = s.resetInput := by unfold State.holdReset; split <;> rfl
@[simp] theorem State.holdReset_bitmap (s : State) :
    (s.holdReset).bitmap = s.bitmap := by unfold State.holdReset; split <;> rfl
@[simp] theorem State.holdReset_touched (s : State) :
    (s.holdReset).touched = s.touched := by unfold State.holdReset; split <;> rfl
@[simp] theorem State.holdReset_host (s : State) :
    (s.holdReset).host = s.host := by unfold State.holdReset; split <;> rfl
@[simp] theorem State.holdReset_hostData (s : State) :
    (s.holdReset).hostData = s.hostData := by unfold State.holdReset; split <;> rfl
@[simp] theorem State.holdReset_busScript (s : State) :
    (s.holdReset).busScript = s.busScript := by unfold State.holdReset; split <;> rfl
@[simp] theorem State.holdReset_busyScript (s : State) :
    (s.holdReset).busyScript = s.busyScript := by unfold State.holdReset; split <;> rfl
@[simp] theorem State.holdReset_draws (s : State) :
    (s.holdReset).draws = s.draws := by unfold State.holdReset; split <;> rfl

@[simp] theorem State.driveReset_inst (asserted : Bool) (s : State) :
    (s.driveReset asserted).inst = s.inst := by cases asserted <;> rfl
@[simp] theorem State.driveReset_resetInput (asserted : Bool) (s : State) :
    (s.driveReset asserted).resetInput = asserted := by cases asserted <;> rfl
@[simp] theorem State.driveReset_bitmap (asserted : Bool) (s : State) :
    (s.driveReset asserted).bitmap = s.bitmap := by cases asserted <;> rfl
@[simp] theorem State.driveReset_touched (asserted : Bool) (s : State) :
    (s.driveReset asserted).touched = s.touched := by cases asserted <;> rfl
@[simp] theorem State.driveReset_host (asserted : Bool) (s : State) :
    (s.driveReset asserted).host = s.host := by cases asserted <;> rfl
@[simp] theorem State.driveReset_hostData (asserted : Bool) (s : State) :
    (s.driveReset asserted).hostData = s.hostData := by cases asserted <;> rfl
@[simp] theorem State.driveReset_busScript (asserted : Bool) (s : State) :
    (s.driveReset asserted).busScript = s.busScript := by cases asserted <;> rfl
@[simp] theorem State.driveReset_busyScript (asserted : Bool) (s : State) :
    (s.driveReset asserted).busyScript = s.busyScript := by cases asserted <;> rfl
@[simp] theorem State.driveReset_draws (asserted : Bool) (s : State) :
    (s.driveReset asserted).draws = s.draws := by cases asserted <;> rfl

/-! ## Register writes: what they never change -/

@[simp] theorem State.regWrite_inst (o : BitVec 8) (v : Word) (s : State) :
    (s.regWrite o v).inst = s.inst := by
  unfold State.regWrite; repeat' (first | rfl | split)
@[simp] theorem State.regWrite_phase (o : BitVec 8) (v : Word) (s : State) :
    (s.regWrite o v).phase = s.phase := by
  unfold State.regWrite; repeat' (first | rfl | split)
@[simp] theorem State.regWrite_sp (o : BitVec 8) (v : Word) (s : State) :
    (s.regWrite o v).sp = s.sp := by
  unfold State.regWrite; repeat' (first | rfl | split)
@[simp] theorem State.regWrite_status (o : BitVec 8) (v : Word) (s : State) :
    (s.regWrite o v).status = s.status := by
  unfold State.regWrite; repeat' (first | rfl | split)
@[simp] theorem State.regWrite_latches (o : BitVec 8) (v : Word) (s : State) :
    (s.regWrite o v).latches = s.latches := by
  unfold State.regWrite; repeat' (first | rfl | split)
@[simp] theorem State.regWrite_window (o : BitVec 8) (v : Word) (s : State) :
    (s.regWrite o v).window = s.window := by
  unfold State.regWrite; repeat' (first | rfl | split)
@[simp] theorem State.regWrite_pointer (o : BitVec 8) (v : Word) (s : State) :
    (s.regWrite o v).pointer = s.pointer := by
  unfold State.regWrite; repeat' (first | rfl | split)
@[simp] theorem State.regWrite_payload (o : BitVec 8) (v : Word) (s : State) :
    (s.regWrite o v).payload = s.payload := by
  unfold State.regWrite; repeat' (first | rfl | split)
@[simp] theorem State.regWrite_stream (o : BitVec 8) (v : Word) (s : State) :
    (s.regWrite o v).stream = s.stream := by
  unfold State.regWrite; repeat' (first | rfl | split)
@[simp] theorem State.regWrite_timer (o : BitVec 8) (v : Word) (s : State) :
    (s.regWrite o v).timer = s.timer := by
  unfold State.regWrite; repeat' (first | rfl | split)
@[simp] theorem State.regWrite_rst (o : BitVec 8) (v : Word) (s : State) :
    (s.regWrite o v).rst = s.rst := by
  unfold State.regWrite; repeat' (first | rfl | split)
@[simp] theorem State.regWrite_resetInput (o : BitVec 8) (v : Word) (s : State) :
    (s.regWrite o v).resetInput = s.resetInput := by
  unfold State.regWrite; repeat' (first | rfl | split)
@[simp] theorem State.regWrite_trace (o : BitVec 8) (v : Word) (s : State) :
    (s.regWrite o v).trace = s.trace := by
  unfold State.regWrite; repeat' (first | rfl | split)
@[simp] theorem State.regWrite_bitmap (o : BitVec 8) (v : Word) (s : State) :
    (s.regWrite o v).bitmap = s.bitmap := by
  unfold State.regWrite; repeat' (first | rfl | split)
@[simp] theorem State.regWrite_touched (o : BitVec 8) (v : Word) (s : State) :
    (s.regWrite o v).touched = s.touched := by
  unfold State.regWrite; repeat' (first | rfl | split)
@[simp] theorem State.regWrite_host (o : BitVec 8) (v : Word) (s : State) :
    (s.regWrite o v).host = s.host := by
  unfold State.regWrite; repeat' (first | rfl | split)
@[simp] theorem State.regWrite_hostData (o : BitVec 8) (v : Word) (s : State) :
    (s.regWrite o v).hostData = s.hostData := by
  unfold State.regWrite; repeat' (first | rfl | split)
@[simp] theorem State.regWrite_busScript (o : BitVec 8) (v : Word) (s : State) :
    (s.regWrite o v).busScript = s.busScript := by
  unfold State.regWrite; repeat' (first | rfl | split)
@[simp] theorem State.regWrite_busyScript (o : BitVec 8) (v : Word) (s : State) :
    (s.regWrite o v).busyScript = s.busyScript := by
  unfold State.regWrite; repeat' (first | rfl | split)
@[simp] theorem State.regWrite_draws (o : BitVec 8) (v : Word) (s : State) :
    (s.regWrite o v).draws = s.draws := by
  unfold State.regWrite; repeat' (first | rfl | split)

end Sys2Proof.Machine
end

