-- ==== Sys2Proof/Laws/Ops.lean ====
section
/-! SUPPORT. For each shared operation, everything it can do, said once: the two ends of a bus event, the two ends of
`advance`, the outcomes of admission, and the one form all sixteen bus commands have. -/

namespace Sys2Proof.Machine

/-! ## Flags -/

@[simp] theorem Status.ended_busy (c : ErrCode) (t : Status) : (t.ended c).busy = false := rfl
@[simp] theorem Status.ended_fault (c : ErrCode) (t : Status) :
    (t.ended c).fault = (t.fault || c == .transportFailure) := rfl
@[simp] theorem Status.ended_init (c : ErrCode) (t : Status) : (t.ended c).init = t.init := rfl
@[simp] theorem Status.ended_asleep (c : ErrCode) (t : Status) : (t.ended c).asleep = t.asleep := rfl
@[simp] theorem Status.ended_mode (c : ErrCode) (t : Status) : (t.ended c).mode = t.mode := rfl
@[simp] theorem Status.ended_rej (c : ErrCode) (t : Status) : (t.ended c).rej = t.rej := rfl
@[simp] theorem Status.ended_err (c : ErrCode) (t : Status) : (t.ended c).err = c := rfl
@[simp] theorem Status.setRej_busy (b : Bool) (t : Status) : (t.setRej b).busy = t.busy := rfl
@[simp] theorem Status.setRej_fault (b : Bool) (t : Status) : (t.setRej b).fault = t.fault := rfl
@[simp] theorem Status.setRej_init (b : Bool) (t : Status) : (t.setRej b).init = t.init := rfl
@[simp] theorem Status.setRej_asleep (b : Bool) (t : Status) : (t.setRej b).asleep = t.asleep := rfl
@[simp] theorem Status.setRej_mode (b : Bool) (t : Status) : (t.setRej b).mode = t.mode := rfl
@[simp] theorem Status.setRej_err (b : Bool) (t : Status) : (t.setRej b).err = t.err := rfl
@[simp] theorem Status.setRej_rej (b : Bool) (t : Status) : (t.setRej b).rej = b := rfl
@[simp] theorem Status.accept_busy (op : OpCode) (t : Status) : (t.accept op).busy = true := by cases op <;> rfl
@[simp] theorem Status.accept_fault (op : OpCode) (t : Status) : (t.accept op).fault = t.fault := by
  cases op <;> rfl
@[simp] theorem Status.accept_mode (op : OpCode) (t : Status) : (t.accept op).mode = t.mode := by cases op <;> rfl
@[simp] theorem Status.accept_rej (op : OpCode) (t : Status) : (t.accept op).rej = t.rej := by cases op <;> rfl
@[simp] theorem Status.accept_err (op : OpCode) (t : Status) : (t.accept op).err = t.err := by cases op <;> rfl
@[simp] theorem Status.opDone_fault (l : Latches) (t : Status) : (t.opDone l).fault = t.fault := by
  unfold Status.opDone; split <;> rfl
@[simp] theorem Status.opDone_rej (l : Latches) (t : Status) : (t.opDone l).rej = t.rej := by
  unfold Status.opDone; split <;> rfl
@[simp] theorem Status.setRej_ready (b : Bool) (t : Status) : (t.setRej b).ready = t.ready := rfl

/-! ## Step lists see only the instance and the running op -/

theorem State.steps_congr {s t : State} (hi : t.inst = s.inst) (hl : t.latches.op = s.latches.op) :
    t.steps = s.steps := by
  simp [State.steps, State.params, hi, hl]

@[simp] theorem State.steps_emit (e : Event) (s : State) : (s.emit e).steps = s.steps := rfl
@[simp] theorem State.steps_takeResp (s : State) : s.takeResp.steps = s.steps :=
  State.steps_congr (by simp) (by simp)
@[simp] theorem State.steps_takeBusy (s : State) : s.takeBusy.steps = s.steps :=
  State.steps_congr (by simp) (by simp)
@[simp] theorem State.steps_enterSubsequence (c : CmdName) (s : State) :
    (s.enterSubsequence c).steps = s.steps := State.steps_congr (by simp) (by simp)

@[simp] theorem State.params_enterSubsequence (c : CmdName) (s : State) :
    (s.enterSubsequence c).params = s.params := by simp [State.params]

@[simp] theorem State.nextResp_enterSubsequence (c : CmdName) (s : State) :
    (s.enterSubsequence c).nextResp = s.nextResp := by simp [State.nextResp]

/-! ## The environment's draws -/

theorem State.nextResp_of_script {s : State} {r : Resp} {rs : List Resp} (h : s.busScript = r :: rs) :
    s.nextResp = r := by simp [State.nextResp, h]

theorem State.takeResp_busScript_of {s : State} {r : Resp} {rs : List Resp} (h : s.busScript = r :: rs) :
    s.takeResp.busScript = rs := by simp [State.takeResp, h]

theorem State.nextBusy_of_script {s : State} {r : BusyResp} {rs : List BusyResp} (h : s.busyScript = r :: rs) :
    s.nextBusy = r := by simp [State.nextBusy, h]

theorem State.takeBusy_busyScript_of {s : State} {r : BusyResp} {rs : List BusyResp}
    (h : s.busyScript = r :: rs) : s.takeBusy.busyScript = rs := by simp [State.takeBusy, h]

/-! ## `advance` and bus events -/

/-- Not the last step: only `sp` moves. -/
theorem State.advance_of_lt {s : State} (h : s.sp + 1 < s.steps.length) : s.advance = { s with sp := s.sp + 1 } :=
  if_pos h

/-- The last step: the op ends OK. -/
theorem State.advance_of_last {s : State} (h : s.steps.length ≤ s.sp + 1) : s.advance = s.complete :=
  if_neg (by omega)

theorem State.busEvent_of_ok {e : Resp → Event} {next : State → State} {s : State} (h : s.nextResp = .ok) :
    s.busEvent e next = next (s.takeResp.emit (e .ok)) := by simp [State.busEvent, h]

theorem State.busEvent_of_err {e : Resp → Event} {next : State → State} {s : State} (h : s.nextResp = .err) :
    s.busEvent e next = (s.takeResp.emit (e .err)).raiseTransportFailure := by simp [State.busEvent, h]

/-- A bus event either goes on with an `ok` event or raises with an `err` event. -/
theorem State.busEvent_cases (e : Resp → Event) (next : State → State) (s : State) :
    (s.nextResp = .ok ∧ s.busEvent e next = next (s.takeResp.emit (e .ok)))
    ∨ (s.nextResp = .err ∧ s.busEvent e next = (s.takeResp.emit (e .err)).raiseTransportFailure) := by
  cases h : s.nextResp
  · exact .inl ⟨rfl, State.busEvent_of_ok h⟩
  · exact .inr ⟨rfl, State.busEvent_of_err h⟩

/-! ## The sixteen bus commands have one form -/

/-- The data bytes of a command, computed from the state it runs in (R86). -/
def payloadOf (c : CmdName) (s : State) : List Byte :=
  match c with
  | .driverOutputControl => leBytes (s.params.panelHeight - 1) ++ [Config.gateScanDir]
  | .boosterSoftStartControl => Config.booster
  | .writeVcomRegister => [Config.vcom]
  | .setDummyLinePeriod => [Config.dummyLine]
  | .setGateTime => [Config.gateTime]
  | .dataEntryModeSetting => [Config.dataEntry]
  | .writeLutRegister => lutOf s.params s.latches.mode
  | .setRamXAddressStartEndPosition => [lo8 (byteColumn s.window.xs), lo8 (byteColumn s.window.xe)]
  | .setRamYAddressStartEndPosition => leBytes s.window.ys ++ leBytes s.window.ye
  | .setRamXAddressCounter => [lo8 (byteColumn s.pointer.px)]
  | .setRamYAddressCounter => leBytes s.pointer.py
  | .writeRam => []
  | .displayUpdateControl2 => [Config.updateCtrl]
  | .masterActivation => []
  | .terminateFrameReadWrite => []
  | .deepSleepMode => []

/-- The stream counter after a command: WRITE_RAM opens the stream, the others leave it. -/
def streamAfter (c : CmdName) (s : State) : Option StreamCounter :=
  if c = .writeRam then openStream s.params s.latches else s.stream

/-- `exec` of a bus command: the command byte, then its data bytes are due. -/
theorem exec_toInstr (c : CmdName) (s : State) :
    exec c.toInstr s = .next (s.busCmd (s.params.cmd.code c) (fun t =>
      State.advance { t with payload := payloadOf c s, stream := streamAfter c t })) := by
  cases c <;> rfl

theorem lutOf_length (i : BlockInstance) (m : LutMode) : (lutOf i.params m).length = Config.lutLen := by
  have h := i.ok
  simp only [Params.wf, Params.lutsOk, Bool.and_eq_true, beq_iff_eq] at h
  cases m
  · exact h.1.1.1.2.1
  · exact h.1.1.1.2.2

/-- A command's payload has the length its transaction has in the step list. -/
theorem payloadOf_length (c : CmdName) (s : State) : (payloadOf c s).length = payloadLength c := by
  cases c <;> first | rfl | exact lutOf_length s.inst s.latches.mode

/-! ## Admission -/

/-- Everything `Admit` can do (R231). -/
theorem State.admission_cases (op : OpCode) (mode : LutMode) (fill : Byte) (s : State) :
    (s.status.fault = true ∧ s.admission op mode fill = s.endWith .faulted)
    ∨ (s.status.fault = false ∧ op ≠ .init ∧ s.status.ready = false
        ∧ s.admission op mode fill = s.endWith .notReady)
    ∨ (s.status.fault = false ∧ (op = .init ∨ s.status.ready = true) ∧ op = .draw
        ∧ drawArgsValid s.params (s.latch op mode fill).latches = false
        ∧ s.admission op mode fill = (s.latch op mode fill).endOp .invalidArg)
    ∨ (s.status.fault = false ∧ (op = .init ∨ s.status.ready = true)
        ∧ (op = .draw → drawArgsValid s.params (s.latch op mode fill).latches = true)
        ∧ s.admission op mode fill = (s.latch op mode fill).accept op) := by
  unfold State.admission
  by_cases hf : s.status.fault = true
  · exact .inl ⟨hf, if_pos hf⟩
  · have hf' : s.status.fault = false := by simpa using hf
    rw [if_neg hf]
    by_cases hr : op ≠ .init ∧ s.status.ready = false
    · exact .inr (.inl ⟨hf', hr.1, hr.2, if_pos hr⟩)
    · have hr' : op = .init ∨ s.status.ready = true := by
        by_cases h : op = .init
        · exact .inl h
        · exact .inr (by simpa [h] using hr)
      rw [if_neg hr]
      by_cases hd : op = .draw ∧ drawArgsValid s.params (s.latch op mode fill).latches = false
      · exact .inr (.inr (.inl ⟨hf', hr', hd.1, hd.2, if_pos hd⟩))
      · exact .inr (.inr (.inr ⟨hf', hr', fun h => by simpa [h] using hd, if_neg hd⟩))

theorem State.onOpWrite_of_run {op : OpCode} {mode : LutMode} {fill : Byte} {s : State} (h : s.phase = .run) :
    s.onOpWrite op mode fill = s.reject := if_pos h

theorem State.onOpWrite_of_not_run {op : OpCode} {mode : LutMode} {fill : Byte} {s : State} (h : s.phase ≠ .run) :
    s.onOpWrite op mode fill = s.clearRej.admission op mode fill := if_neg h

/-! ## Races on bitmap bytes (R64) -/

/-- One action of the script, for a byte it does not write: what it costs of the events left, or that it ends the
race. -/
theorem racesAhead_cons {p : Params} {n a : Nat} {x : HostAction} {xs : List HostAction} :
    racesAhead p (n + 1) (x :: xs) a = true ↔ x.allowed p = true ∧ x ≠ .wait ∧ x ≠ .resetInput true
      ∧ ((∃ addr bytes, x = .memWrite addr bytes ∧ addr.toNat ≤ a ∧ a < addr.toNat + bytes.length)
        ∨ racesAhead p (if x = .letBlockRun then n else n + 1) xs a = true) := by
  cases x with
  | resetInput b => cases b <;> simp [racesAhead]
  | _ => simp [racesAhead]

@[simp] theorem racesAhead_nil {p : Params} {n a : Nat} : racesAhead p n [] a = false := by
  cases n <;> rfl

@[simp] theorem racesAhead_zero {p : Params} {a : Nat} {xs : List HostAction} : racesAhead p 0 xs a = false := by
  cases xs <;> rfl

/-- A host does not race for a byte that it does not write before some point of its script at which it has ended, has
waited for `BUSY` = 0, or has let the op perform all its events. -/
theorem racesAhead_of_no_write {p : Params} {a : Nat} {rest : List HostAction} :
    ∀ {before : List HostAction} {n : Nat},
      (∀ addr bytes, .memWrite addr bytes ∈ before → a < addr.toNat ∨ addr.toNat + bytes.length ≤ a) →
      (rest = [] ∨ rest.head? = some .wait ∨ n ≤ before.count .letBlockRun) →
      racesAhead p n (before ++ rest) a = false
  | _, 0, _, _ => racesAhead_zero
  | [], n + 1, _, h => by
    rcases h with rfl | h | h
    · exact racesAhead_nil
    · cases rest with
      | nil => cases h
      | cons x xs =>
        obtain rfl : x = .wait := by simpa using h
        simp [racesAhead]
    · simp at h
  | x :: xs, n + 1, hw, h => by
    rw [List.cons_append, Bool.eq_false_iff, ne_eq, racesAhead_cons]
    rintro ⟨-, -, -, ⟨addr, bytes, rfl, h1, h2⟩ | ha⟩
    · have := hw addr bytes List.mem_cons_self
      omega
    · have hw' : ∀ addr bytes, .memWrite addr bytes ∈ xs → a < addr.toNat ∨ addr.toNat + bytes.length ≤ a :=
        fun addr bytes hm => hw addr bytes (List.mem_cons_of_mem _ hm)
      rw [racesAhead_of_no_write hw' (h.imp_right (·.imp_right fun hc => ?_))] at ha
      · cases ha
      · split
        next hx => subst hx; rw [List.count_cons_self] at hc; omega
        next hx => rwa [List.count_cons_of_ne hx] at hc

/-- A host that writes the byte after fewer block turns than the op has events left races for it. -/
theorem racesAhead_of_write {p : Params} {addr : Word} {bytes : List Byte} {rest : List HostAction} {a : Nat}
    (h0 : addr.toNat + bytes.length ≤ p.bmpMemBytes) (h1 : addr.toNat ≤ a) (h2 : a < addr.toNat + bytes.length) :
    ∀ {before : List HostAction} {n : Nat}, (∀ x ∈ before, x.allowed p = true ∧ x ≠ .wait ∧ x ≠ .resetInput true) →
      before.count .letBlockRun < n → racesAhead p n (before ++ .memWrite addr bytes :: rest) a = true
  | _, 0, _, h => by omega
  | [], _ + 1, _, _ => by
    rw [List.nil_append, racesAhead_cons]
    exact ⟨by simpa [HostAction.allowed] using h0, nofun, nofun, .inl ⟨addr, bytes, rfl, h1, h2⟩⟩
  | x :: xs, n + 1, hx, h => by
    obtain ⟨ha, hn, hr⟩ := hx x List.mem_cons_self
    rw [List.cons_append, racesAhead_cons]
    refine ⟨ha, hn, hr, .inr (racesAhead_of_write h0 h1 h2 (fun y hy => hx y (List.mem_cons_of_mem _ hy)) ?_)⟩
    split
    next hb => subst hb; rw [List.count_cons_self] at h; omega
    next hb => rwa [List.count_cons_of_ne hb] at h

/-- `eventsAfter` counts by the responses the packing steps draw (`packByteStep`): the next byte's, once eight draws
have been set aside for its pixels, and so on from the state in which it has been taken. -/
theorem eventsAfter_succ (n : Nat) (s : State) :
    eventsAfter (n + 1) s.busScript s.draws =
      match State.nextResp { s with draws := s.draws + 8 } with
      | .ok => eventsAfter n (State.takeResp { s with draws := s.draws + 8 }).busScript
          (State.takeResp { s with draws := s.draws + 8 }).draws + 1
      | .err => 0 := by
  cases s.busScript with
  | nil => cases hr : Config.freeResp (s.draws + 8) <;> simp [eventsAfter, State.nextResp, State.takeResp, hr]
  | cons r rs => cases r <;> simp [eventsAfter, State.nextResp, State.takeResp]

/-- An op whose script of responses fails after `k` more bytes performs `k` more events, or as many as its stream
has. -/
theorem eventsAfter_of_script {k : Nat} {more : List Resp} :
    ∀ {left d : Nat}, eventsAfter left (List.replicate k .ok ++ .err :: more) d = min k left := by
  induction k with
  | zero => intro left d; cases left <;> simp [eventsAfter]
  | succ k ih =>
    intro left d
    cases left with
    | zero => simp [eventsAfter]
    | succ n => simp [List.replicate_succ, eventsAfter, ih]

theorem State.pixel_of_not_raced {s : State} {r i : Nat} (h : s.raced r i = false) :
    s.pixel r i = s.bitmap.read (pixAddr s.latches i r) := if_neg (by simp [h])

theorem State.pixel_of_raced {s : State} {r i : Nat} (h : s.raced r i = true) :
    s.pixel r i = Config.freePixel (s.draws + i % 8) := if_pos h

end Sys2Proof.Machine
end

