-- ==== Sys2Proof/Laws/PerInstr.lean ====
section
/-! SUPPORT. The per-instruction family `FitsRow`: the encoding of an instruction in the default command table fits its row
of spec/opcode_table.json. -/

namespace Sys2Proof.Laws.FitsRow

/-- The encoder's words match the "match" and "mask" of the instruction's opcode-table row (R81, R94). -/
def Statement (i : Instr) : Prop := (tableRow i).fits (encode Config.defaultCmd i) = true

theorem init (mode : LutMode) : Statement (.init mode) := by cases mode <;> rfl
theorem setlut (mode : LutMode) : Statement (.setlut mode) := by cases mode <;> rfl

/-- The fill byte reaches only bits [15:8], which the row's mask leaves free. -/
theorem clear (fill : Byte) : Statement (.clear fill) := by
  have h : opWordOf 0x3#4 0#1 fill &&& 0xFFFF00FF#32 = 0x00000003#32 := by
    ext k hk
    simp only [opWordOf, BitVec.getElem_and, BitVec.getElem_or, BitVec.getElem_shiftLeft,
      BitVec.getElem_setWidth]
    interval_cases k <;> simp
  have := congrArg BitVec.toNat h
  simp only [BitVec.toNat_and] at this
  simpa [Statement, TableRow.fits, tableRow, encode, Encoding.bits] using this

theorem draw : Statement .draw := rfl
theorem refresh : Statement .refresh := rfl
theorem sleep : Statement .sleep := rfl
theorem driverOutputControl : Statement .driverOutputControl := rfl
theorem boosterSoftStartControl : Statement .boosterSoftStartControl := rfl
theorem writeVcomRegister : Statement .writeVcomRegister := rfl
theorem setDummyLinePeriod : Statement .setDummyLinePeriod := rfl
theorem setGateTime : Statement .setGateTime := rfl
theorem dataEntryModeSetting : Statement .dataEntryModeSetting := rfl
theorem writeLutRegister : Statement .writeLutRegister := rfl
theorem setRamXAddressStartEndPosition : Statement .setRamXAddressStartEndPosition := rfl
theorem setRamYAddressStartEndPosition : Statement .setRamYAddressStartEndPosition := rfl
theorem setRamXAddressCounter : Statement .setRamXAddressCounter := rfl
theorem setRamYAddressCounter : Statement .setRamYAddressCounter := rfl
theorem writeRam : Statement .writeRam := rfl
theorem displayUpdateControl2 : Statement .displayUpdateControl2 := rfl
theorem masterActivation : Statement .masterActivation := rfl
theorem terminateFrameReadWrite : Statement .terminateFrameReadWrite := rfl
theorem deepSleepMode : Statement .deepSleepMode := rfl

end Sys2Proof.Laws.FitsRow
end

