-- ==== Sys2Proof/Laws/Step.lean ====
section
/-! SUPPORT. What one step can do, said once: the host's actions by name, and for the block one event and one of three
continuations. Later proofs case on these lemmas instead of unfolding `step`. -/

namespace Sys2Proof.Machine

/-! ## Host operations -/

/-- The six host operations have one form. -/
theorem exec_of_hostOp {i : Instr} {op : OpCode} {mode : LutMode} {fill : Byte}
    (h : hostOpOf i = some (op, mode, fill)) (s : State) : exec i s = .next (s.onOpWrite op mode fill) := by
  cases i <;> simp only [hostOpOf, Option.some.injEq, Prod.mk.injEq, reduceCtorEq] at h <;>
    (obtain ⟨rfl, rfl, rfl⟩ := h; rfl)

/-- A word that decodes is a host operation. -/
theorem decodeHost_hostOp {w : Word} {i : Instr} (h : decodeHost w = .ok i) :
    ∃ op mode fill, hostOpOf i = some (op, mode, fill) := by
  unfold decodeHost decodePlain at h
  repeat' split at h
  all_goals first
    | (obtain rfl := Except.ok.inj h; exact ⟨_, _, _, rfl⟩)
    | exact absurd h (by simp)

/-- An instruction is a host operation or a bus command. -/
theorem hostOp_or_toInstr (i : Instr) :
    (∃ op mode fill, hostOpOf i = some (op, mode, fill)) ∨ ∃ c : CmdName, i = c.toInstr := by
  cases i with
  | init _ | setlut _ | clear _ | draw | refresh | sleep => exact .inl ⟨_, _, _, rfl⟩
  | driverOutputControl => exact .inr ⟨.driverOutputControl, rfl⟩
  | boosterSoftStartControl => exact .inr ⟨.boosterSoftStartControl, rfl⟩
  | writeVcomRegister => exact .inr ⟨.writeVcomRegister, rfl⟩
  | setDummyLinePeriod => exact .inr ⟨.setDummyLinePeriod, rfl⟩
  | setGateTime => exact .inr ⟨.setGateTime, rfl⟩
  | dataEntryModeSetting => exact .inr ⟨.dataEntryModeSetting, rfl⟩
  | writeLutRegister => exact .inr ⟨.writeLutRegister, rfl⟩
  | setRamXAddressStartEndPosition => exact .inr ⟨.setRamXAddressStartEndPosition, rfl⟩
  | setRamYAddressStartEndPosition => exact .inr ⟨.setRamYAddressStartEndPosition, rfl⟩
  | setRamXAddressCounter => exact .inr ⟨.setRamXAddressCounter, rfl⟩
  | setRamYAddressCounter => exact .inr ⟨.setRamYAddressCounter, rfl⟩
  | writeRam => exact .inr ⟨.writeRam, rfl⟩
  | displayUpdateControl2 => exact .inr ⟨.displayUpdateControl2, rfl⟩
  | masterActivation => exact .inr ⟨.masterActivation, rfl⟩
  | terminateFrameReadWrite => exact .inr ⟨.terminateFrameReadWrite, rfl⟩
  | deepSleepMode => exact .inr ⟨.deepSleepMode, rfl⟩

/-! ## The host's actions -/

/-- Everything one host action can do that answers a next state; `s` is the state with the action taken from the
script. -/
theorem hostAct_cases {a : HostAction} {s t : State} (h : hostAct a s = .next t) :
    (a = .letBlockRun ∧ blockStep s = .next t)
    ∨ (∃ b, a = .resetInput b ∧ t = s.driveReset b)
    ∨ (∃ w i op mode fill, a = wregOp w ∧ decodeHost w = .ok i ∧ hostOpOf i = some (op, mode, fill)
        ∧ t = s.onOpWrite op mode fill)
    ∨ (∃ w r, a = wregOp w ∧ decodeHost w = .error r ∧ t = s.onIllegalWrite)
    ∨ (∃ o v, a = .write o 32 v ∧ o ≠ 0x00#8 ∧ t = s.regWrite o v)
    ∨ (∃ v, t = { s with hostData := s.hostData ++ [v] }
        ∧ ((∃ o, a = .read o 32 ∧ v = s.regRead o)
          ∨ ∃ addr, a = .memRead addr ∧ v = (s.bitmap.read addr.toNat).setWidth 32))
    ∨ (a = .wait ∧ t = s.waitTurn)
    ∨ (∃ addr bytes, a = .memWrite addr bytes ∧ addr.toNat + bytes.length ≤ s.params.bmpMemBytes
        ∧ t = { s with
          bitmap := s.bitmap.writeBytes addr.toNat bytes
          touched := insertAddrs s.touched addr.toNat bytes.length }) := by
  cases a with
  | write o bits v =>
    simp only [hostAct, hostWrite] at h
    split at h
    next hok =>
      have hbits : bits = 32 := by
        simp only [hostAccessOk, Bool.and_eq_true, beq_iff_eq] at hok
        exact hok.1
      subst hbits
      split at h
      next ho =>
        subst ho
        unfold opWrite at h
        split at h
        next i hd =>
          obtain ⟨op, mode, fill, ho⟩ := decodeHost_hostOp hd
          rw [exec_of_hostOp ho] at h
          exact .inr (.inr (.inl ⟨v, i, op, mode, fill, rfl, hd, ho, (Host.Outcome.next.inj h).symm⟩))
        next r hd => exact .inr (.inr (.inr (.inl ⟨v, r, rfl, hd, (Host.Outcome.next.inj h).symm⟩)))
      next ho => exact .inr (.inr (.inr (.inr (.inl ⟨o, v, rfl, ho, (Host.Outcome.next.inj h).symm⟩))))
    next => simp at h
  | read o bits =>
    simp only [hostAct, hostRead] at h
    split at h
    next hok =>
      have hbits : bits = 32 := by
        simp only [hostAccessOk, Bool.and_eq_true, beq_iff_eq] at hok
        exact hok.1
      subst hbits
      exact .inr (.inr (.inr (.inr (.inr (.inl ⟨_, (Host.Outcome.next.inj h).symm, .inl ⟨o, rfl, rfl⟩⟩)))))
    next => simp at h
  | wait => exact .inr (.inr (.inr (.inr (.inr (.inr (.inl ⟨rfl, (Host.Outcome.next.inj h).symm⟩))))))
  | memWrite addr bytes =>
    simp only [hostAct, hostMemWrite] at h
    split at h
    next hr =>
      exact .inr (.inr (.inr (.inr (.inr (.inr (.inr ⟨addr, bytes, rfl, hr, (Host.Outcome.next.inj h).symm⟩))))))
    next => simp at h
  | memRead addr =>
    simp only [hostAct, hostMemRead] at h
    split at h
    next =>
      exact .inr (.inr (.inr (.inr (.inr (.inl ⟨_, (Host.Outcome.next.inj h).symm, .inr ⟨addr, rfl, rfl⟩⟩)))))
    next => simp at h
  | resetInput b => exact .inr (.inl ⟨b, rfl, (Host.Outcome.next.inj h).symm⟩)
  | letBlockRun => exact .inl ⟨rfl, h⟩

/-! ## The reset input -/

/-- With the reset input asserted, a turn leaves the block at its reset values, whatever the host does (R290). -/
theorem resetTurn_held {s t : State} (hr : s.resetInput = true) (h : resetTurn s = .next t) : t.blockReset = t := by
  have held : ∀ u : State, u.resetInput = true → u.holdReset.blockReset = u.holdReset := fun u hu => by
    unfold State.holdReset; rw [if_pos hu]; rfl
  unfold resetTurn at h
  split at h
  next a rest hh =>
    cases ho : hostAct a { s.blockReset with host := rest } with
    | fault r => rw [ho] at h; simp [heldInReset] at h
    | refused r => rw [ho] at h; simp [heldInReset] at h
    | next u =>
      rw [ho] at h
      obtain rfl := Host.Outcome.next.inj h
      rcases hostAct_cases ho with ⟨-, hb⟩ | ⟨b, -, rfl⟩ | ⟨w, i, op, mode, fill, -, -, -, rfl⟩ | ⟨w, r, -, -, rfl⟩
        | ⟨o, v, -, -, rfl⟩ | ⟨v, rfl, -⟩ | ⟨-, rfl⟩ | ⟨addr, bytes, -, -, rfl⟩
      · obtain rfl := (Host.Outcome.next.inj hb)
        exact held _ hr
      · cases b <;> rfl
      · refine held _ ?_
        rw [State.onOpWrite_of_not_run (by simp)]
        rcases State.admission_cases op mode fill (State.clearRej { s.blockReset with host := rest })
          with ⟨-, e⟩ | ⟨-, -, -, e⟩ | ⟨-, -, -, -, e⟩ | ⟨-, -, -, e⟩ <;> rw [e] <;> simpa using hr
      · refine held _ ?_
        unfold State.onIllegalWrite
        repeat' split
        all_goals simpa using hr
      · exact held _ (by simpa using hr)
      · exact held _ hr
      · refine held _ ?_
        unfold State.waitTurn; split <;> exact hr
      · exact held _ hr
  next => obtain rfl := Host.Outcome.next.inj h; rfl

/-! ## Steps -/

/-- A step is one of two turns. -/
theorem step_turns (s : State) :
    (s.resetInput = true ∧ step s = resetTurn s) ∨ (s.resetInput = false ∧ step s = releasedTurn s) := by
  cases h : s.resetInput
  · exact .inr ⟨rfl, by simp [step, turn, h]⟩
  · exact .inl ⟨rfl, by simp [step, turn, h]⟩

/-- With the reset input released, a step is a turn of the host or of the block. -/
theorem step_of_released {s : State} (h : s.resetInput = false) : step s = releasedTurn s := by
  simp [step, turn, h]

/-- A released turn takes the host's next action, or with none left the block's next event. `hostAct_cases` and
`blockStep_cases` go on from here. -/
theorem releasedTurn_cases {s t : State} (h : releasedTurn s = .next t) :
    (s.host = [] ∧ blockStep s = .next t)
    ∨ ∃ a rest, s.host = a :: rest ∧ hostAct a { s with host := rest } = .next t := by
  unfold releasedTurn at h
  split at h
  next a rest hh => exact .inr ⟨a, rest, hh, h⟩
  next hh => exact .inl ⟨hh, h⟩

/-! ## The block's turn -/

/-- The block's turn outside RUN does nothing; in RUN it performs the step `sp` names. -/
theorem blockStep_cases {s t : State} (h : blockStep s = .next t) :
    (s.phase ≠ .run ∧ t = s)
    ∨ (s.phase = .run ∧ ∃ m, s.steps[s.sp]? = some m ∧ runMicroStep m s = .next t) := by
  unfold blockStep at h
  split at h
  next hr =>
    split at h
    next m hm => exact .inr ⟨hr, m, hm, h⟩
    next => simp at h
  next hr => exact .inl ⟨hr, (Host.Outcome.next.inj h).symm⟩

/-- What the block's turn does not touch before the step's continuation: everything but the window and pointer
latches, the counters, RST and the environment's draws. -/
structure SameCore (s s' : State) : Prop where
  inst : s'.inst = s.inst
  phase : s'.phase = s.phase
  sp : s'.sp = s.sp
  status : s'.status = s.status
  origin : s'.origin = s.origin
  bmpsize : s'.bmpsize = s.bmpsize
  bmpbase : s'.bmpbase = s.bmpbase
  latches : s'.latches = s.latches
  resetInput : s'.resetInput = s.resetInput
  trace : s'.trace = s.trace
  bitmap : s'.bitmap = s.bitmap
  touched : s'.touched = s.touched
  host : s'.host = s.host
  hostData : s'.hostData = s.hostData

/-- The event a step may append: a command byte only from that command's step, a busy reading only from the poll. -/
def EventFits (m : MicroStep) (s : State) (e : Event) : Prop :=
  match e with
  | .cmd b _ => ∃ c, m = .bus c ∧ b = s.params.cmd.code c
  | .busy _ => m = .poll
  | .data _ _ => True
  | .pin _ => True
  | .wait _ => True

/-- One step of a running op: it appends one event, and then the op raises TransportFailure, goes on, or stays at its
loop step. -/
theorem runMicroStep_shape {m : MicroStep} {s t : State} (h : runMicroStep m s = .next t) :
    ∃ s' e, SameCore s s' ∧ EventFits m s e
      ∧ ((e.failed = true ∧ t = (s'.emit e).raiseTransportFailure)
        ∨ (e.failed = false ∧ (t = (s'.emit e).advance ∨ t = s'.emit e))) := by
  cases m with
  | setPin lvl =>
    obtain rfl := Host.Outcome.next.inj h
    exact ⟨{ s with rst := lvl }, .pin lvl, by constructor <;> rfl, trivial,
      .inr ⟨rfl, .inl rfl⟩⟩
  | delay ms =>
    obtain rfl := Host.Outcome.next.inj h
    exact ⟨s, .wait ms, by constructor <;> rfl, trivial,
      .inr ⟨rfl, .inl rfl⟩⟩
  | bus c =>
    rw [runMicroStep, exec_toInstr, State.params_enterSubsequence] at h
    obtain rfl := Host.Outcome.next.inj h
    rcases State.busEvent_cases (Event.cmd (s.params.cmd.code c)) _ (s.enterSubsequence c)
      with ⟨-, he⟩ | ⟨-, he⟩
    · refine ⟨{ (s.enterSubsequence c).takeResp with
        payload := payloadOf c (s.enterSubsequence c)
        stream := streamAfter c ((s.enterSubsequence c).takeResp.emit
          (.cmd (s.params.cmd.code c) .ok)) }, .cmd (s.params.cmd.code c) .ok, ?_, ⟨c, rfl, rfl⟩,
        .inr ⟨rfl, .inl (he.trans rfl)⟩⟩
      constructor <;> simp
    · refine ⟨(s.enterSubsequence c).takeResp, .cmd (s.params.cmd.code c) .err, ?_, ⟨c, rfl, rfl⟩, .inl ⟨rfl, he⟩⟩
      constructor <;> simp
  | dataByte =>
    simp only [runMicroStep, dataByteStep] at h
    split at h
    next b bs hp =>
      obtain rfl := Host.Outcome.next.inj h
      rcases State.busEvent_cases (Event.data b) (fun t => State.advance { t with payload := bs }) s
        with ⟨-, he⟩ | ⟨-, he⟩
      · refine ⟨{ s.takeResp with payload := bs }, .data b .ok, ?_, trivial, .inr ⟨rfl, .inl (he.trans rfl)⟩⟩
        constructor <;> simp
      · refine ⟨s.takeResp, .data b .err, ?_, trivial, .inl ⟨rfl, he⟩⟩
        constructor <;> simp
    next => simp at h
  | poll =>
    obtain rfl := Host.Outcome.next.inj h
    unfold State.pollStep
    split
    next ms ht =>
      exact ⟨{ s with timer := none }, .wait ms, by constructor <;> rfl,
        trivial, .inr ⟨rfl, .inr rfl⟩⟩
    next ht =>
      split
      next => exact ⟨s.takeBusy, .busy .low, by constructor <;> simp, rfl, .inr ⟨rfl, .inl rfl⟩⟩
      next =>
        exact ⟨{ s.takeBusy with timer := some Config.pollIntervalMs }, .busy .high, by constructor <;> simp, rfl,
          .inr ⟨rfl, .inr rfl⟩⟩
      next => exact ⟨s.takeBusy, .busy .err, by constructor <;> simp, rfl, .inl ⟨rfl, rfl⟩⟩
  | fillByte =>
    simp only [runMicroStep, fillByteStep] at h
    split at h
    next n hs =>
      obtain rfl := Host.Outcome.next.inj h
      rcases State.busEvent_cases (Event.data s.latches.fill) (fun t =>
        if n = 0 then State.advance { t with stream := none } else { t with stream := some (.fill n) }) s
        with ⟨-, he⟩ | ⟨-, he⟩
      · by_cases hn : n = 0
        · refine ⟨{ s.takeResp with stream := none }, .data s.latches.fill .ok, ?_, trivial,
            .inr ⟨rfl, .inl (he.trans (by simp [hn]; rfl))⟩⟩
          constructor <;> simp
        · refine ⟨{ s.takeResp with stream := some (.fill n) }, .data s.latches.fill .ok, ?_, trivial,
            .inr ⟨rfl, .inr (he.trans (by simp [hn]; rfl))⟩⟩
          constructor <;> simp
      · refine ⟨s.takeResp, .data s.latches.fill .err, ?_, trivial, .inl ⟨rfl, he⟩⟩
        constructor <;> simp
    next => simp at h
  | packByte =>
    simp only [runMicroStep, packByteStep] at h
    split at h
    next r g hs =>
      split at h
      next =>
        obtain rfl := Host.Outcome.next.inj h
        rcases State.busEvent_cases (Event.data (s.packByte r g)) (fun t =>
          match nextPack (drawRect t.params t.latches).nb (drawRect t.params t.latches).nr r g with
          | some c => { t with stream := some c }
          | none => State.advance { t with stream := none }) { s with draws := s.draws + 8 }
          with ⟨-, he⟩ | ⟨-, he⟩
        · cases hn : nextPack (drawRect s.params s.latches).nb (drawRect s.params s.latches).nr r g with
          | none =>
            refine ⟨{ State.takeResp { s with draws := s.draws + 8 } with stream := none }, .data (s.packByte r g) .ok, ?_, trivial,
              .inr ⟨rfl, .inl (he.trans (by simp [State.params] at hn ⊢; rw [hn]; rfl))⟩⟩
            constructor <;> simp
          | some c =>
            refine ⟨{ State.takeResp { s with draws := s.draws + 8 } with stream := some c }, .data (s.packByte r g) .ok, ?_, trivial,
              .inr ⟨rfl, .inr (he.trans (by simp [State.params] at hn ⊢; rw [hn]; rfl))⟩⟩
            constructor <;> simp
        · refine ⟨State.takeResp { s with draws := s.draws + 8 }, .data (s.packByte r g) .err, ?_, trivial, .inl ⟨rfl, he⟩⟩
          constructor <;> simp
      next => simp at h
    next => simp at h

end Sys2Proof.Machine
end

