-- ==== Sys2Proof/Tests/Slice0.lean ====
section
/-! SUPPORT. Small checks. Expected values are those of spec/95_test_vectors.md or are computed by hand from the rule
named in the docstring. The last part gives, for each obligation with hypotheses, a state and operands that meet them. -/

namespace Sys2Proof.Tests

open Sys2Proof.Machine

/-! ## States to start from -/

/-- "Ready" of spec/95: reset, then an INIT FULL that ended OK, trace cleared. -/
def ready : State := { State.reset with status := { Status.reset with init := true } }

/-- Ready, with the arguments of V13: a 10 × 3 bitmap at (13, 5), base 0x200. -/
def readyV13 : State :=
  { ready with origin := 0x0005000D#32, bmpsize := 0x0003000A#32, bmpbase := 0x00000200#32 }

/-- Faulted: STATUS = 0x00000402 (V39). -/
def faulted : State :=
  { State.reset with phase := .fault, status := { Status.reset with fault := true, err := .transportFailure } }

/-- Asleep: STATUS = 0x00000008 (V24). -/
def asleep : State := { State.reset with status := { Status.reset with asleep := true } }

/-- A running op at step `sp`, the host quiet. -/
def running (op : OpCode) (sp : Nat) : State :=
  { ready with phase := .run, sp := sp, status := ready.status.accept op
               latches := { Latches.reset with op := op } }

/-- The running home op of a bus command with that command next, the host quiet, all responses `ok`. -/
def atCmd (c : CmdName) : State :=
  { ready.atBusCommand c with host := [], busScript := List.replicate (payloadLength c + 1) .ok }

/-- REFRESH waiting at its WaitIdle. -/
def polling (readings : List BusyResp) : State := { running .refresh 4 with busyScript := readings }

/-- The state an outcome answers. -/
def nextOf : Host.Outcome State Fault Refusal → Option State
  | .next s => some s
  | .fault _ => none
  | .refused _ => none

/-- The STATUS word and the phase after an outcome. -/
def statusOf (o : Host.Outcome State Fault Refusal) : Option Word := (nextOf o).map (fun s => statusWord s.status)

/-- The trace after an outcome. -/
def traceOf (o : Host.Outcome State Fault Refusal) : Option (List Event) := (nextOf o).map (fun s => s.trace)

/-- The data bytes still due after an outcome. -/
def dueOf (o : Host.Outcome State Fault Refusal) : Option (List Byte) := (nextOf o).map (fun s => s.payload)

/-! ## Well-formedness: each check refuses an ill-formed term -/

/-- R8: a width that is no multiple of 8, and one above 2048. -/
theorem test_width_refused :
    ({ Config.defaultParams with panelWidth := 204 } : Params).widthOk = false
    ∧ ({ Config.defaultParams with panelWidth := 2056 } : Params).widthOk = false
    ∧ ({ Config.defaultParams with panelWidth := 2048 } : Params).widthOk = true := by decide

/-- R8: height 0 and height 65537. -/
theorem test_height_refused :
    ({ Config.defaultParams with panelHeight := 0 } : Params).heightOk = false
    ∧ ({ Config.defaultParams with panelHeight := 65537 } : Params).heightOk = false := by decide

/-- R142: a LUT of 29 bytes. -/
theorem test_lut_length_refused :
    ({ Config.defaultParams with lutFull := List.replicate 29 0#8 } : Params).lutsOk = false
    ∧ ({ Config.defaultParams with lutPartial := List.replicate 31 0#8 } : Params).lutsOk = false := by decide

/-- R89, U4: two names with one byte. -/
theorem test_cmd_clash_refused : ({ Config.defaultCmd with writeRam := 0x44#8 } : CmdTable).distinct = false := by
  decide

/-- R301, U5: a reset hold of 199 ms. -/
theorem test_short_hold_refused :
    ({ Config.defaultParams with resetLowMs := 199 } : Params).holdsOk = false
    ∧ ({ Config.defaultParams with resetHighMs := 199 } : Params).holdsOk = false := by decide

/-- R8: no bitmap memory, and more than 2^32 bytes. -/
theorem test_bitmap_size_refused :
    ({ Config.defaultParams with bmpMemBytes := 0 } : Params).bmpMemOk = false
    ∧ ({ Config.defaultParams with bmpMemBytes := 2 ^ 32 + 1 } : Params).bmpMemOk = false := by decide

/-- U4-U6: an instance that breaks a check cannot be built. -/
theorem test_bad_instance_not_built :
    BlockInstance.build { Config.defaultParams with resetLowMs := 199 } = none
    ∧ BlockInstance.build { Config.defaultParams with lutFull := [] } = none := by decide

/-- R82: each must-be-zero field. -/
theorem test_must_be_zero :
    opWordMustBeZeroOk 0x00000021#32 = false ∧ opWordMustBeZeroOk 0x00010005#32 = false
    ∧ opWordMustBeZeroOk 0x00000013#32 = false ∧ opWordMustBeZeroOk 0x00000104#32 = false
    ∧ opWordMustBeZeroOk 0x0000FF03#32 = true := by decide

/-- R56, U1: a 16-bit access and a misaligned one. -/
theorem test_host_access_refused :
    hostAccessOk 0x04#8 16 = false ∧ hostAccessOk 0x06#8 32 = false ∧ hostAccessOk 0x04#8 32 = true := by decide

/-! ## Decoding: words written out from R80, R81 and the codes of R94 -/

theorem test_decode_init : decodeHost 0x00000001#32 = .ok (.init .fullUpdate)
    ∧ decodeHost 0x00000011#32 = .ok (.init .partialUpdate) := ⟨rfl, rfl⟩
theorem test_decode_setlut : decodeHost 0x00000002#32 = .ok (.setlut .fullUpdate)
    ∧ decodeHost 0x00000012#32 = .ok (.setlut .partialUpdate) := ⟨rfl, rfl⟩
theorem test_decode_clear : decodeHost 0x00000003#32 = .ok (.clear 0x00#8)
    ∧ decodeHost 0x0000FF03#32 = .ok (.clear 0xFF#8) ∧ decodeHost 0x0000A503#32 = .ok (.clear 0xA5#8) :=
  ⟨rfl, rfl, rfl⟩
theorem test_decode_draw : decodeHost 0x00000004#32 = .ok .draw := rfl
theorem test_decode_refresh : decodeHost 0x00000005#32 = .ok .refresh := rfl
theorem test_decode_sleep : decodeHost 0x00000006#32 = .ok .sleep := rfl

/-- V8j to V8s. -/
theorem test_decode_illegal :
    [0x00000000#32, 0x00000007#32, 0x0000000F#32, 0x00000013#32, 0x00000104#32, 0x00000101#32, 0x00000021#32,
      0x00010005#32, 0x80000006#32, 0x00000015#32].all (fun w => (decodeHost w).toOption.isNone) = true := by decide

/-- R94, one command byte per name. -/
theorem test_decode_bus_init_family :
    decodeBus Config.defaultCmd 0x01#8 = .ok .driverOutputControl
    ∧ decodeBus Config.defaultCmd 0x0C#8 = .ok .boosterSoftStartControl
    ∧ decodeBus Config.defaultCmd 0x2C#8 = .ok .writeVcomRegister
    ∧ decodeBus Config.defaultCmd 0x3A#8 = .ok .setDummyLinePeriod
    ∧ decodeBus Config.defaultCmd 0x3B#8 = .ok .setGateTime
    ∧ decodeBus Config.defaultCmd 0x11#8 = .ok .dataEntryModeSetting
    ∧ decodeBus Config.defaultCmd 0x32#8 = .ok .writeLutRegister := ⟨rfl, rfl, rfl, rfl, rfl, rfl, rfl⟩
theorem test_decode_bus_address_family :
    decodeBus Config.defaultCmd 0x44#8 = .ok .setRamXAddressStartEndPosition
    ∧ decodeBus Config.defaultCmd 0x45#8 = .ok .setRamYAddressStartEndPosition
    ∧ decodeBus Config.defaultCmd 0x4E#8 = .ok .setRamXAddressCounter
    ∧ decodeBus Config.defaultCmd 0x4F#8 = .ok .setRamYAddressCounter := ⟨rfl, rfl, rfl, rfl⟩
theorem test_decode_bus_transfer_family :
    decodeBus Config.defaultCmd 0x24#8 = .ok .writeRam
    ∧ decodeBus Config.defaultCmd 0x22#8 = .ok .displayUpdateControl2
    ∧ decodeBus Config.defaultCmd 0x20#8 = .ok .masterActivation
    ∧ decodeBus Config.defaultCmd 0xFF#8 = .ok .terminateFrameReadWrite
    ∧ decodeBus Config.defaultCmd 0x10#8 = .ok .deepSleepMode := ⟨rfl, rfl, rfl, rfl, rfl⟩
theorem test_decode_bus_unknown : decodeBus Config.defaultCmd 0x12#8 = .error .unknownCommand := rfl
theorem test_decode_table_word : decodeTableWord 32 0x00000011 = some (.init .partialUpdate)
    ∧ decodeTableWord 8 0x24 = some .writeRam ∧ decodeTableWord 16 0x24 = none := ⟨rfl, rfl, rfl⟩

/-- One instruction of every row. -/
def oneOfEach : List Instr :=
  [.init .fullUpdate, .setlut .fullUpdate, .clear 0#8, .draw, .refresh, .sleep] ++ CmdName.all.map CmdName.toInstr

/-- No two rows of the opcode table overlap: where the lengths agree, some bit both masks look at differs. -/
theorem test_rows_do_not_overlap :
    (oneOfEach.map tableRow).Pairwise (fun r q => r.nbits = q.nbits →
      (r.pattern ^^^ q.pattern) &&& r.mask &&& q.mask ≠ 0) := by decide

/-! ## Operands, flags, memory -/

/-- V9c, V9d, V9e, V9i, by the packer's rule. -/
theorem test_pack_bits :
    packBits 9 (fun i => [1#8, 0#8, 0#8, 0#8, 0#8, 0#8, 0#8, 1#8, 200#8].getD i 0#8) 0 8 = 0x81#8
    ∧ packBits 9 (fun i => [1#8, 0#8, 0#8, 0#8, 0#8, 0#8, 0#8, 1#8, 200#8].getD i 0#8) 1 8 = 0x80#8
    ∧ packBits 10 (fun _ => 255#8) 1 8 = 0xC0#8
    ∧ packBits 10 (fun i => [0#8, 1#8, 0#8, 1#8, 0#8, 1#8, 0#8, 1#8, 1#8, 0#8].getD i 0#8) 0 8 = 0x55#8
    ∧ packBits 4 (fun i => [9#8, 0#8, 0#8, 3#8].getD i 0#8) 0 8 = 0x90#8 := by decide

/-- V12b, V12c, V12d, V12e, V12h. -/
theorem test_draw_rect :
    drawRect Config.defaultParams { Latches.reset with x := 13, y := 5, w := 10, h := 3 } = ⟨8, 5, 17, 7⟩
    ∧ drawRect Config.defaultParams { Latches.reset with x := 192, y := 198, w := 16, h := 4 } = ⟨192, 198, 199, 199⟩
    ∧ drawRect Config.defaultParams { Latches.reset with x := 197, y := 0, w := 4, h := 1 } = ⟨192, 0, 195, 0⟩
    ∧ drawRect Config.defaultParams { Latches.reset with x := 199, y := 199, w := 1, h := 1 } = ⟨192, 199, 192, 199⟩
    ∧ (drawRect Config.defaultParams { Latches.reset with x := 8, w := 193, h := 1 }).nb = 24 := by decide

/-- V33 to V36: each clause of the argument check that a 200 × 200 panel can show. -/
theorem test_draw_args_refused :
    drawArgsValid Config.defaultParams { Latches.reset with x := 200, w := 4, h := 1 } = false
    ∧ drawArgsValid Config.defaultParams { Latches.reset with y := 200, w := 4, h := 1 } = false
    ∧ drawArgsValid Config.defaultParams { Latches.reset with w := 0, h := 1 } = false
    ∧ drawArgsValid Config.defaultParams { Latches.reset with w := 4, h := 0 } = false := by decide

/-- V37 and V38: 90 + 12 does not fit 100 bytes, 88 + 12 does. -/
theorem test_draw_args_memory_bound :
    drawArgsValid { Config.defaultParams with bmpMemBytes := 100 }
      { Latches.reset with w := 4, h := 3, base := 90 } = false
    ∧ drawArgsValid { Config.defaultParams with bmpMemBytes := 100 }
      { Latches.reset with w := 4, h := 3, base := 88 } = true := by decide

/-- V10c: PH = 257 and PH = 65536, little-endian. -/
theorem test_le_bytes : leBytes (257 - 1) = [0x00#8, 0x01#8] ∧ leBytes (65536 - 1) = [0xFF#8, 0xFF#8]
    ∧ leBytes 300 = [0x2C#8, 0x01#8] := by decide

/-- R24, words of sections 2.6 and 2.7 of spec/95. -/
theorem test_status_word :
    statusWord ready.status = 0x00000004#32 ∧ statusWord faulted.status = 0x00000402#32
    ∧ statusWord asleep.status = 0x00000008#32
    ∧ statusWord ⟨true, false, true, false, .partialUpdate, true, .invalidArg⟩ = 0x00000335#32 := by decide

/-- The canonical form: writing the default byte removes an entry; a later address does not disturb an earlier. -/
theorem test_memory_canonical :
    Memory.write (Memory.write [] 5 0x11#8) 3 0x22#8 = [(3, 0x22#8), (5, 0x11#8)]
    ∧ Memory.write [(3, 0x22#8), (5, 0x11#8)] 3 0x00#8 = [(5, 0x11#8)] := by decide

/-! ## One step of each host operation -/

/-- INIT from reset (P4): BUSY, and INIT and ASLEEP cleared; while asleep it is accepted too (V10g). -/
theorem test_init_starts : statusOf (exec (.init .fullUpdate) State.reset) = some 0x00000001#32
    ∧ statusOf (exec (.init .partialUpdate) asleep) = some 0x00000001#32 := by decide
/-- V39. -/
theorem test_init_faulted : statusOf (exec (.init .fullUpdate) faulted) = some 0x00000502#32 := by decide
/-- V10f, and acceptance from ready. -/
theorem test_setlut : statusOf (exec (.setlut .partialUpdate) State.reset) = some 0x00000200#32
    ∧ statusOf (exec (.setlut .partialUpdate) ready) = some 0x00000005#32 := by decide
/-- V30, and the latched fill byte (R29). -/
theorem test_clear : statusOf (exec (.clear 0xFF#8) State.reset) = some 0x00000200#32
    ∧ (nextOf (exec (.clear 0xA5#8) ready)).map (fun s => s.latches.fill) = some 0xA5#8 := by decide
/-- V33 and V31. -/
theorem test_draw_turned_away :
    statusOf (exec .draw { ready with origin := 0x000000C8#32, bmpsize := 0x00010004#32 }) = some 0x00000304#32
    ∧ statusOf (exec .draw State.reset) = some 0x00000200#32 := by decide
/-- V13: the latches of an accepted DRAW (R29). -/
theorem test_draw_latches : (nextOf (exec .draw readyV13)).map (fun s => s.latches)
    = some ⟨.draw, .fullUpdate, 0x00#8, 13, 5, 10, 3, 0x00000200#32⟩ := by decide
/-- V41: while an op runs, REFRESH is dropped and REJ is set. -/
theorem test_refresh_rejected : statusOf (exec .refresh (running .draw 3)) = some 0x00000025#32
    ∧ statusOf (exec .refresh ready) = some 0x00000005#32 := by decide
/-- V26, and acceptance from ready. -/
theorem test_sleep : statusOf (exec .sleep asleep) = some 0x00000208#32
    ∧ statusOf (exec .sleep ready) = some 0x00000005#32 := by decide
/-- V40: an illegal word in FAULT is FAULTED, not ILLEGAL_OP. -/
theorem test_faulted_beats_illegal :
    statusOf (step { faulted with host := [wregOp 0x00000000#32] }) = some 0x00000502#32
    ∧ statusOf (step { ready with host := [wregOp 0x00000000#32] }) = some 0x00000104#32 := by decide

/-! ## One step of each bus command: the command byte, and the data bytes that become due -/

/-- R132 to R134. -/
theorem test_driver_output_control : traceOf (exec .driverOutputControl (atCmd .driverOutputControl))
      = some [.cmd 0x01#8 .ok]
    ∧ dueOf (exec .driverOutputControl (atCmd .driverOutputControl)) = some [0xC7#8, 0x00#8, 0x00#8] := by decide
theorem test_booster : traceOf (exec .boosterSoftStartControl (atCmd .boosterSoftStartControl))
      = some [.cmd 0x0C#8 .ok]
    ∧ dueOf (exec .boosterSoftStartControl (atCmd .boosterSoftStartControl)) = some [0xD7#8, 0xD6#8, 0x9D#8] := by
  decide
theorem test_vcom : traceOf (exec .writeVcomRegister (atCmd .writeVcomRegister)) = some [.cmd 0x2C#8 .ok]
    ∧ dueOf (exec .writeVcomRegister (atCmd .writeVcomRegister)) = some [0xA8#8] := by decide
/-- R137 to R139. -/
theorem test_dummy_line : traceOf (exec .setDummyLinePeriod (atCmd .setDummyLinePeriod)) = some [.cmd 0x3A#8 .ok]
    ∧ dueOf (exec .setDummyLinePeriod (atCmd .setDummyLinePeriod)) = some [0x1A#8] := by decide
theorem test_gate_time : traceOf (exec .setGateTime (atCmd .setGateTime)) = some [.cmd 0x3B#8 .ok]
    ∧ dueOf (exec .setGateTime (atCmd .setGateTime)) = some [0x08#8] := by decide
theorem test_data_entry : traceOf (exec .dataEntryModeSetting (atCmd .dataEntryModeSetting))
      = some [.cmd 0x11#8 .ok]
    ∧ dueOf (exec .dataEntryModeSetting (atCmd .dataEntryModeSetting)) = some [0x03#8] := by decide
/-- R136: the table of the latched mode, first and last byte. -/
theorem test_write_lut : traceOf (exec .writeLutRegister (atCmd .writeLutRegister)) = some [.cmd 0x32#8 .ok]
    ∧ (dueOf (exec .writeLutRegister { atCmd .writeLutRegister with
        latches := { Latches.reset with op := .setlut, mode := .partialUpdate } })).map (fun l => l.take 4)
      = some [0x10#8, 0x18#8, 0x18#8, 0x08#8] := by decide
/-- V11b: the window (8, 5, 17, 7). -/
theorem test_window_x : dueOf (exec .setRamXAddressStartEndPosition
      { atCmd .setRamXAddressStartEndPosition with window := ⟨8, 5, 17, 7⟩ }) = some [0x01#8, 0x02#8] := by decide
/-- V11g: ys = 0, ye = 299. -/
theorem test_window_y : dueOf (exec .setRamYAddressStartEndPosition
      { atCmd .setRamYAddressStartEndPosition with window := ⟨0, 0, 0, 299⟩ })
    = some [0x00#8, 0x00#8, 0x2B#8, 0x01#8] := by decide
/-- V11e and V11f: the pointer (13, 300). -/
theorem test_pointer_x : dueOf (exec .setRamXAddressCounter
      { atCmd .setRamXAddressCounter with pointer := ⟨13, 300⟩ }) = some [0x01#8] := by decide
theorem test_pointer_y : dueOf (exec .setRamYAddressCounter
      { atCmd .setRamYAddressCounter with pointer := ⟨13, 300⟩ }) = some [0x2C#8, 0x01#8] := by decide
/-- R181, R182: 5000 bytes are left to send after WRITE_RAM of a CLEAR. -/
theorem test_write_ram : traceOf (exec .writeRam (atCmd .writeRam)) = some [.cmd 0x24#8 .ok]
    ∧ (nextOf (exec .writeRam (atCmd .writeRam))).map (fun s => s.stream) = some (some (.fill 5000)) := by decide
/-- V20. -/
theorem test_display_update : traceOf (exec .displayUpdateControl2 (atCmd .displayUpdateControl2))
      = some [.cmd 0x22#8 .ok]
    ∧ dueOf (exec .displayUpdateControl2 (atCmd .displayUpdateControl2)) = some [0xC4#8] := by decide
theorem test_master_activation : traceOf (exec .masterActivation (atCmd .masterActivation))
      = some [.cmd 0x20#8 .ok]
    ∧ dueOf (exec .masterActivation (atCmd .masterActivation)) = some [] := by decide
theorem test_terminate : traceOf (exec .terminateFrameReadWrite (atCmd .terminateFrameReadWrite))
      = some [.cmd 0xFF#8 .ok] := by decide
/-- V24 and V48. -/
theorem test_deep_sleep : traceOf (exec .deepSleepMode (atCmd .deepSleepMode)) = some [.cmd 0x10#8 .ok]
    ∧ statusOf (exec .deepSleepMode { atCmd .deepSleepMode with busScript := [.err] }) = some 0x00000406#32 := by
  decide

/-! ## The other steps -/

/-- R210: the last step of SLEEP; V24's final STATUS. -/
theorem test_poll_low_ends_sleep :
    statusOf (step { running .sleep 1 with busyScript := [.low] }) = some 0x00000008#32 := by decide
/-- V45's last event. -/
theorem test_poll_err : statusOf (step { running .clear 13 with busyScript := [.err] }) = some 0x00000406#32
    ∧ traceOf (step { running .clear 13 with busyScript := [.err] }) = some [.busy .err] := by decide
/-- R191: the last packed byte of V13's row 0 moves the counter to row 1. -/
theorem test_pack_counter : nextPack 2 3 0 1 = some (.pack 1 0) ∧ nextPack 2 3 2 1 = none := by decide
/-- V51: a write to STATUS is ignored. -/
theorem test_status_read_only :
    statusOf (step { ready with host := [.write 0x04#8 32 0xFFFFFFFF#32] }) = some 0x00000004#32 := by decide
/-- V49: block reset out of the fault, and R290: while the input is asserted STATUS stays 0. -/
theorem test_block_reset : statusOf (step { faulted with host := [.resetInput true] }) = some 0x00000000#32
    ∧ statusOf (step { faulted with host := [.read 0x04#8 32], resetInput := true }) = some 0x00000000#32 := by decide
/-- R290: an `OP` write of INIT while the reset input is asserted starts nothing; after the release it does. -/
theorem test_op_write_in_reset :
    (nextOf (step { State.reset with host := [wregOp 0x1#32], resetInput := true })).map (fun s => s.phase)
      = some .idle
    ∧ (nextOf (step { State.reset with host := [.resetInput false], resetInput := true })).map (fun s => s.resetInput)
      = some false := by decide
/-- R64: a host write still to come races for the byte, but not one after a WAIT, nor one after the op's last event. -/
theorem test_races_ahead :
    racesAhead Config.defaultParams 3 [.letBlockRun, .memWrite 0x10#32 [1#8, 2#8]] 0x11 = true
    ∧ racesAhead Config.defaultParams 3 [.letBlockRun, .memWrite 0x10#32 [1#8, 2#8]] 0x12 = false
    ∧ racesAhead Config.defaultParams 3 [.wait, .memWrite 0x10#32 [1#8]] 0x10 = false
    ∧ racesAhead Config.defaultParams 1 [.letBlockRun, .memWrite 0x10#32 [1#8]] 0x10 = false := by decide
/-- R64, R262: the op's last event is the byte that fails, this one or a later one, or else the last of its stream. -/
theorem test_events_after :
    eventsAfter 5 [.err] 0 = 0 ∧ eventsAfter 5 [.ok, .ok, .err] 0 = 2 ∧ eventsAfter 1 [.ok, .ok, .err] 0 = 1 := by decide
/-- R100, R101: the op words and the registers of P2's UPDATE. -/
theorem test_update_line : updateAt 0 0 16 2 0x100#32
    = [.write 0x08#8 32 0x00000000#32, .write 0x0C#8 32 0x00020010#32, .write 0x10#8 32 0x00000100#32,
       wregOp 0x00000004#32, .wait, wregOp 0x00000005#32] := by decide

/-! ## Witnesses: for each obligation with hypotheses, a state and operands that meet them all -/

/-- A state with the same script for the host. -/
def withHost (s : State) (as : List HostAction) : State := { s with host := as }

/-- The outcome is the state it answers. -/
theorem step_answers {s : State} (h : (nextOf (step s)).isSome = true) : ∃ t, step s = .next t := by
  cases hs : step s with
  | next t => exact ⟨t, rfl⟩
  | fault r => rw [hs] at h; cases h
  | refused r => rw [hs] at h; cases h

/-- DecodeOfEncodeIsIdentity. -/
theorem witness_distinct_table : Config.defaultCmd.distinct = true := by decide

/-- EncodeOfDecodeIsIdentity. -/
theorem witness_decode : decode Config.defaultCmd (.opWord 0x0000FF03#32) = .ok (.clear 0xFF#8)
    ∧ decode Config.defaultCmd (.busCode 0x24#8) = .ok .writeRam := ⟨rfl, rfl⟩

/-- IllegalOpEndsAtAdmission: each way to be illegal, OPC 0, 7 and 15, and a must-be-zero field. -/
theorem witness_illegal_op : ready.resetInput = false
    ∧ (withHost ready [wregOp 0x7#32]).phase = .idle ∧ ready.status.busy = false ∧ ready.status.fault = false
    ∧ ready.sp = 0
    ∧ (0x00000000#32 : Word).extractLsb' 0 4 = 0x0#4 ∧ 7 ≤ ((0x00000007#32 : Word).extractLsb' 0 4).toNat
    ∧ 7 ≤ ((0x0000000F#32 : Word).extractLsb' 0 4).toNat ∧ opWordMustBeZeroOk 0x00000104#32 = false := by decide

/-- StepRunsDecodedOpWrite. -/
theorem witness_op_write : (withHost ready [wregOp 0x00000004#32]).host = [wregOp 0x00000004#32]
    ∧ (withHost ready [wregOp 0x00000004#32]).resetInput = false ∧ decodeHost 0x00000004#32 = .ok .draw :=
  ⟨rfl, rfl, rfl⟩

/-- StepRunsBusCommand, with the host quiet and with a host that lets the block run. -/
theorem witness_bus_step :
    (atCmd .writeRam).resetInput = false ∧ (atCmd .writeRam).phase = .run
    ∧ (atCmd .writeRam).steps[(atCmd .writeRam).sp]? = some (.bus .writeRam)
    ∧ (atCmd .writeRam).host = []
    ∧ (withHost (atCmd .writeRam) [.letBlockRun]).steps[(atCmd .writeRam).sp]? = some (.bus .writeRam) := by decide

/-- PlacedInstructionRuns. -/
theorem witness_placed : decodeTableWord 32 0x00000011 = some (.init .partialUpdate)
    ∧ State.reset.params.cmd = Config.defaultCmd ∧ decodeTableWord 8 0xFF = some .terminateFrameReadWrite :=
  ⟨rfl, rfl, rfl⟩

/-- OpWriteWhileRunningIsDropped. -/
theorem witness_running_op_write :
    (withHost (running .draw 3) [wregOp 0x00000005#32]).host = [wregOp 0x00000005#32]
    ∧ (running .draw 3).phase = .run ∧ (running .draw 3).resetInput = false := by decide

/-- AdmissionChecksInOrder: a state for each clause, all with an `OP` write first and no op running. -/
theorem witness_admission_clauses :
    (faulted.resetInput = false ∧ ready.resetInput = false ∧ State.reset.resetInput = false
        ∧ readyV13.resetInput = false)
    ∧ (faulted.phase ≠ .run ∧ faulted.status.fault = true)
    ∧ (ready.phase ≠ .run ∧ ready.status.fault = false ∧ (decodeHost 0x00000000#32).toOption = none)
    ∧ (hostOpOf .draw = some (.draw, .fullUpdate, 0#8) ∧ State.reset.status.fault = false
        ∧ ¬(State.reset.status.init = true ∧ State.reset.status.asleep = false))
    ∧ (ready.status.init = true ∧ ready.status.asleep = false ∧ ¬DrawRegistersValid ready)
    ∧ DrawRegistersValid readyV13 := by unfold DrawRegistersValid; decide

/-- What an op other than INIT needs is met by `readyV13` with any scripts. -/
theorem accepts_ready (op : OpCode) (s : State) (hr : s.resetInput = false) (hp : s.phase = .idle)
    (hs : s.status = ready.status) (hd : op = .draw → DrawRegistersValid s) : AcceptsOp s op where
  released := hr
  not_running := by rw [hp]; decide
  no_fault := by rw [hs]; rfl
  ready := fun _ => by rw [hs]; decide
  args := hd

/-- V13's arguments pass the check. -/
theorem valid_v13 : DrawRegistersValid readyV13 := by unfold DrawRegistersValid; decide

/-- HostOpsStart, for each of the six operations. -/
theorem witness_host_ops_start :
    AcceptsOp State.reset .init ∧ AcceptsOp readyV13 .setlut ∧ AcceptsOp readyV13 .clear
    ∧ AcceptsOp readyV13 .draw ∧ AcceptsOp readyV13 .refresh ∧ AcceptsOp readyV13 .sleep :=
  ⟨⟨rfl, by decide, rfl, fun h => absurd rfl h, fun h => absurd h (by decide)⟩,
   accepts_ready _ _ rfl rfl rfl fun _ => valid_v13, accepts_ready _ _ rfl rfl rfl fun _ => valid_v13,
   accepts_ready _ _ rfl rfl rfl fun _ => valid_v13, accepts_ready _ _ rfl rfl rfl fun _ => valid_v13,
   accepts_ready _ _ rfl rfl rfl fun _ => valid_v13⟩

/-- HostOpsFrame, with a state in which the last clause applies. -/
theorem witness_host_ops_frame : (∃ t, exec .sleep ready = .next t)
    ∧ hostOpOf .sleep = some (.sleep, .fullUpdate, 0#8)
    ∧ ¬(OpCode.sleep = .init ∧ ready.phase ≠ .run ∧ ready.status.fault = false) := ⟨⟨_, rfl⟩, rfl, by decide⟩

/-- HostCannotDisturbRunningOp. -/
theorem witness_host_during_op :
    (∃ t, step (withHost (running .draw 3) [.write 0x08#8 32 0xFFFFFFFF#32]) = .next t)
    ∧ (running .draw 3).resetInput = false ∧ (running .draw 3).phase = .run
    ∧ HostAction.write 0x08#8 32 0xFFFFFFFF#32 ≠ .resetInput true ∧ HostAction.wait ≠ .letBlockRun :=
  ⟨step_answers (by decide), by decide⟩

/-- ReservedOffsetsAndBits: the first and the last reserved offset. -/
theorem witness_reserved_offsets : 0x14 ≤ (0x14#8 : BitVec 8).toNat ∧ 0x14 ≤ (0xFF#8 : BitVec 8).toNat := by decide

/-- RegisterReadHasNoSideEffect and RegisterWriteSetsItsRegister: aligned offsets, the last register and the first and
last reserved word. -/
theorem witness_register_access :
    ready.resetInput = false ∧ (0x00#8 : BitVec 8).toNat % 4 = 0 ∧ (0x10#8 : BitVec 8).toNat % 4 = 0 ∧ (0x14#8 : BitVec 8).toNat % 4 = 0
    ∧ (0xFC#8 : BitVec 8).toNat % 4 = 0 ∧ (0x10#8 : BitVec 8) ≠ 0x00#8
    ∧ (withHost ready [.read 0x10#8 32]).host = [.read 0x10#8 32]
    ∧ (withHost ready [.write 0x10#8 32 7#32]).host = [.write 0x10#8 32 7#32] := by decide

/-- NarrowOrMisalignedAccessIsRefused. -/
theorem witness_bad_access : ¬((16 : Nat) = 32 ∧ (0x04#8 : BitVec 8).toNat % 4 = 0)
    ∧ ¬((32 : Nat) = 32 ∧ (0x05#8 : BitVec 8).toNat % 4 = 0) := by decide

/-- HostMemWriteStoresItsBytes, at the top of bitmap memory. -/
theorem witness_mem_write : ready.resetInput = false ∧ ready.bitmap.wf = true
    ∧ (0xFFFFFFFE#32 : Word).toNat + [1#8, 2#8].length ≤ ready.params.bmpMemBytes := by decide

/-- OnlyTheHostWritesBitmap. -/
theorem witness_other_step : (∃ t, step (withHost ready [.read 0x04#8 32]) = .next t)
    ∧ ∀ addr bytes rest, (withHost ready [.read 0x04#8 32]).host ≠ .memWrite addr bytes :: rest :=
  ⟨step_answers (by decide), fun _ _ _ h => by cases h⟩

/-- HostMemReadAndWaitTurn: the last byte of bitmap memory, and a WAIT with BUSY = 1 and with BUSY = 0. -/
theorem witness_mem_read_and_wait :
    ready.resetInput = false ∧ (0xFFFFFFFF#32 : Word).toNat < ready.params.bmpMemBytes
    ∧ (withHost (running .draw 3) [.wait]).status.busy = true ∧ (withHost (running .draw 3) [.wait]).resetInput = false
    ∧ (withHost ready [.wait]).status.busy = false := by decide

/-- A DRAW of a 1 × 2 bitmap at address 3, at the first of its two stream bytes, with both responses given. -/
def packing (responses : List Resp) (as : List HostAction) : State :=
  { running .draw 15 with
    stream := some (.pack 0 0)
    latches := { Latches.reset with op := .draw, w := 1, h := 2, base := 3 }
    busScript := responses
    host := as }

/-- The point of the review: a write after a byte that fails comes when BUSY is 0, so memory is read (R64, R262); with
`ok` responses the same script races. -/
theorem test_write_after_failure_does_not_race :
    (packing [.err] [.memWrite 3#32 [7#8]]).raced 0 0 = false
    ∧ (packing [.ok, .ok] [.memWrite 3#32 [7#8]]).raced 0 0 = true
    ∧ (packing [.ok, .err] [.letBlockRun, .memWrite 3#32 [7#8]]).raced 0 0 = false := by decide

/-- BitmapReadsFollowTheRaceRule, clause by clause: an accepted DRAW on an ordered platform whose host writes no byte; a
byte written since; a byte still to be written before the op's last event; a byte written only after a WAIT, or only
after the op's last event, here one that fails; responses that fail, and that do not. -/
theorem witness_race :
    (readyV13.params.platformOrdering = .ordered ∧ readyV13.host = [] ∧ ∃ t, exec .draw readyV13 = .next t)
    ∧ pixAddr (packing [] []).latches 0 0 ∈ ({ packing [] [] with touched := [3] } : State).touched
    ∧ ((packing [.ok, .ok] [.memWrite 3#32 [7#8]]).host = [] ++ .memWrite 3#32 [7#8] :: []
      ∧ (3#32 : Word).toNat ≤ pixAddr (packing [.ok, .ok] []).latches 0 0
      ∧ pixAddr (packing [.ok, .ok] []).latches 0 0 < (3#32 : Word).toNat + [7#8].length
      ∧ (3#32 : Word).toNat + [7#8].length ≤ (packing [.ok, .ok] []).params.bmpMemBytes
      ∧ ([] : List HostAction).count .letBlockRun
        < (packing [.ok, .ok] [.memWrite 3#32 [7#8]]).eventsAfterByte 0 (0 / 8))
    ∧ ((packing [.ok, .ok] [.wait, .memWrite 3#32 [7#8]]).host = [] ++ [.wait, .memWrite 3#32 [7#8]]
      ∧ pixAddr (packing [] []).latches 0 0 ∉ (packing [] []).touched)
    ∧ ((packing [.err] [.memWrite 3#32 [7#8]]).host = [] ++ [.memWrite 3#32 [7#8]]
      ∧ (packing [.err] [.memWrite 3#32 [7#8]]).eventsAfterByte 0 (0 / 8) ≤ ([] : List HostAction).count .letBlockRun)
    ∧ (packing [.ok, .err] []).busScript = List.replicate 1 .ok ++ .err :: []
    ∧ (packing [.ok, .ok] []).busScript = List.replicate 2 .ok ++ []
    ∧ bytesLeft (drawRect (packing [] []).params (packing [] []).latches) 0 0 ≤ 2 :=
  ⟨⟨rfl, rfl, _, rfl⟩, by decide⟩

/-- The five `SendsTransaction` statements, for all sixteen commands: the command is next, the host is quiet, the
responses are `ok`. For MASTER_ACTIVATION and the data commands of INIT steps are left after it. -/
theorem witness_sends_transaction : ∀ c ∈ CmdName.all,
    (atCmd c).resetInput = false ∧ (atCmd c).phase = .run ∧ (atCmd c).host = []
    ∧ (atCmd c).steps.drop (atCmd c).sp
        = transaction c ++ (atCmd c).steps.drop ((atCmd c).sp + (payloadLength c + 1))
    ∧ (atCmd c).busScript = List.replicate (payloadLength c + 1) .ok ++ [] := by decide

/-- The same with steps left after the transaction, for every command that does not end its home op's list. -/
theorem witness_sends_transaction_tail : ∀ c ∈ CmdName.all, c ≠ .writeLutRegister →
    (atCmd c).steps.drop ((atCmd c).sp + (payloadLength c + 1)) ≠ [] := by decide

/-- OutputControlAndLutSendTheirBytes: the LUT command in both modes. -/
theorem witness_lut_modes :
    ({ atCmd .writeLutRegister with latches := { Latches.reset with op := .setlut, mode := .partialUpdate } } : State).steps
      = (atCmd .writeLutRegister).steps := by decide

/-- WriteRamOpensTheStream, for CLEAR and for DRAW. -/
theorem witness_write_ram :
    (atCmd .writeRam).nextResp = .ok ∧ (atCmd .writeRam).sp + 1 < (atCmd .writeRam).steps.length
    ∧ (atCmd .writeRam).latches.op = .clear
    ∧ ({ running .draw 14 with busScript := [.ok] } : State).nextResp = .ok
    ∧ (running .draw 14).sp + 1 < (running .draw 14).steps.length ∧ (running .draw 14).latches.op = .draw := by decide

/-- BusCommandsFrame and FailedCommandByteRaises. -/
theorem witness_bus_command : (∃ t, exec .writeVcomRegister (atCmd .writeVcomRegister) = .next t)
    ∧ (atCmd .writeVcomRegister).nextResp = .ok
    ∧ (atCmd .writeVcomRegister).sp + 1 < (atCmd .writeVcomRegister).steps.length
    ∧ ({ atCmd .writeVcomRegister with busScript := [.err] } : State).nextResp = .err :=
  ⟨⟨_, rfl⟩, by decide⟩

/-- InitRunsToItsEnd and InitIsIdempotent: reset, and asleep, with 47 `ok` responses. -/
theorem witness_init_runs :
    AcceptsOp { State.reset with busScript := List.replicate 47 .ok ++ [] } .init
    ∧ AcceptsOp { asleep with busScript := List.replicate 47 .ok ++ [] } .init
    ∧ State.reset.inst = asleep.inst ∧ State.reset.host = [] ∧ asleep.host = [] :=
  ⟨⟨rfl, by decide, rfl, fun h => absurd rfl h, fun h => absurd h (by decide)⟩,
   ⟨rfl, by decide, rfl, fun h => absurd rfl h, fun h => absurd h (by decide)⟩, rfl, rfl, rfl⟩

/-- A state that meets the hypotheses of a whole-op statement: V13's arguments, `n` `ok` responses, `k` High readings
before the Low one. -/
def quiet (n k : Nat) : State :=
  { readyV13 with busScript := List.replicate n .ok ++ [], busyScript := List.replicate k .high ++ .low :: [] }

/-- A block at rest that is ready and released is a good state, whatever its registers and scripts. -/
theorem inv_quiet (n k : Nat) (as : List HostAction) : Inv (withHost (quiet n k) as) where
  status := ⟨(by decide : ready.status.busy = true ↔ ready.phase = .run),
    (by decide : ready.status.fault = true ↔ ready.phase = .fault),
    (by decide : ¬(ready.status.init = true ∧ ready.status.asleep = true)), nofun⟩
  sequencer := ⟨fun _ => ⟨rfl, rfl, rfl, rfl⟩, nofun, nofun, nofun, nofun, nofun, nofun, nofun⟩
  memory := ⟨rfl, nofun, .nil, nofun⟩
  pin := nofun
  reset := nofun

/-- Setlut-, Clear-, Draw-, Refresh- and SleepRunsToItsEnd, for every number of responses and of High readings. -/
theorem witness_ops_run (op : OpCode) (n k : Nat) :
    Inv (quiet n k) ∧ AcceptsOp (quiet n k) op ∧ (quiet n k).host = []
    ∧ (quiet n k).params.platformOrdering = .ordered
    ∧ (quiet n k).busScript = List.replicate n .ok ++ [] ∧ BusyAfter (quiet n k) k :=
  ⟨inv_quiet n k [], accepts_ready _ _ rfl rfl rfl fun _ => valid_v13, rfl, rfl, rfl, fun _ => ⟨[], rfl⟩⟩

/-- AStepAppendsAtMostOneEvent, OnlyListedCommandsAreSent, NoStepChangesTheInstance: a step that sends a command. -/
theorem witness_command_step : ∃ t, step (atCmd .deepSleepMode) = .next t
    ∧ t.trace = (atCmd .deepSleepMode).trace ++ [.cmd 0x10#8 .ok] := ⟨_, rfl, rfl⟩

/-- BusyIsReadOnlyInWaitIdle. -/
theorem witness_busy_step : ∃ t, step (polling [.high]) = .next t
    ∧ t.trace = (polling [.high]).trace ++ [.busy .high] := ⟨_, rfl, rfl⟩

/-- StreamIsPrecededByWindowAndPointer: a CLEAR and a DRAW, started by an `OP` write, each at the first byte of its
stream, with an `OP` write that is dropped in between. -/
theorem witness_stream :
    (∃ u, core.run 17 (withHost (quiet 14 0) [wregOp 0x0000FF03#32, wregOp 0x5#32]) = .next u ∧ u.phase = .run
      ∧ u.steps[u.sp]? = some .fillByte)
    ∧ (∃ u, core.run 17 (withHost (quiet 14 0) [wregOp 0x00000004#32, wregOp 0x5#32]) = .next u ∧ u.phase = .run
      ∧ u.steps[u.sp]? = some .packByte)
    ∧ ∀ as, Inv (withHost (quiet 14 0) as) ∧ (withHost (quiet 14 0) as).phase ≠ .run :=
  ⟨⟨_, rfl, rfl, rfl⟩, ⟨_, rfl, rfl, rfl⟩, fun as => ⟨inv_quiet 14 0 as, nofun⟩⟩

/-- TransportFailureIsPrecise: a failing event and one that does not fail. -/
theorem witness_failure : (∃ t, step { atCmd .deepSleepMode with busScript := [.err] } = .next t
      ∧ t.trace = (atCmd .deepSleepMode).trace ++ [.cmd 0x10#8 .err])
    ∧ Event.failed (.cmd 0x10#8 .err) = true ∧ Event.failed (.cmd 0x10#8 .ok) = false := ⟨⟨_, rfl, rfl⟩, rfl, rfl⟩

/-- FaultLastsUntilBlockReset, with an `OP` write. -/
theorem witness_fault_lasts : faulted.resetInput = false ∧ faulted.phase = .fault ∧ faulted.status.fault = true
    ∧ (∃ t, step (withHost faulted [wregOp 0x00000001#32]) = .next t)
    ∧ ∀ rest, (withHost faulted [wregOp 0x00000001#32]).host ≠ .resetInput true :: rest :=
  ⟨rfl, rfl, rfl, step_answers (by decide), fun _ h => by cases h⟩

/-- The asleep state is a good state. -/
theorem inv_asleep (as : List HostAction) : Inv (withHost asleep as) where
  status := ⟨(by decide : asleep.status.busy = true ↔ asleep.phase = .run),
    (by decide : asleep.status.fault = true ↔ asleep.phase = .fault),
    (by decide : ¬(asleep.status.init = true ∧ asleep.status.asleep = true)), nofun⟩
  sequencer := ⟨fun _ => ⟨rfl, rfl, rfl, rfl⟩, nofun, nofun, nofun, nofun, nofun, nofun, nofun⟩
  memory := ⟨rfl, nofun, .nil, nofun⟩
  pin := nofun
  reset := nofun

/-- SleepingPanelGetsNoCommand: the step that wakes the panel, and one that does not. -/
theorem witness_asleep : Inv (withHost asleep [wregOp 0x00000001#32])
    ∧ (withHost asleep [wregOp 0x00000001#32]).status.asleep = true
    ∧ (∃ t, step (withHost asleep [wregOp 0x00000001#32]) = .next t)
    ∧ ∃ t, step (withHost asleep [wregOp 0x00000005#32]) = .next t :=
  ⟨inv_asleep _, rfl, step_answers (by decide), step_answers (by decide)⟩

/-- PollReadsThenChecks, WaitIdleEndsAfterLow and HangGoesOnPolling: Low, High and `err`, no High reading and two. In
CLEAR steps are left after the WaitIdle; in REFRESH and SLEEP it is the last step. -/
theorem witness_poll :
    (running .clear 13).resetInput = false ∧ (running .clear 13).phase = .run ∧ (running .clear 13).status.busy = true ∧ (running .clear 13).host = []
    ∧ (running .clear 13).steps[(running .clear 13).sp]? = some .poll ∧ (running .clear 13).timer = none
    ∧ (running .clear 13).sp + 1 < (running .clear 13).steps.length
    ∧ ({ running .clear 13 with busyScript := [.low] } : State).nextBusy = .low
    ∧ ({ running .clear 13 with busyScript := [.high] } : State).nextBusy = .high
    ∧ ({ running .clear 13 with busyScript := [.err] } : State).nextBusy = .err
    ∧ ({ running .clear 13 with busyScript := [.low] } : State).busyScript = List.replicate 0 .high ++ .low :: []
    ∧ ({ running .clear 13 with busyScript := [.high, .high, .low] } : State).busyScript
        = List.replicate 2 .high ++ .low :: []
    ∧ (running .refresh 4).steps[(running .refresh 4).sp]? = some .poll
    ∧ (running .refresh 4).sp + 1 = (running .refresh 4).steps.length
    ∧ (running .sleep 1).steps[(running .sleep 1).sp]? = some .poll
    ∧ (running .sleep 1).sp + 1 = (running .sleep 1).steps.length := by decide

/-- PackingReadsOnlyTheWindow: a 1 × 1 bitmap at address 0 and a byte elsewhere. -/
theorem witness_packing_memory :
    ∀ i j, j < (drawRect Config.defaultParams { Latches.reset with op := .draw, w := 1, h := 1 }).nr → i < 1 →
      i < 8 * (drawRect Config.defaultParams { Latches.reset with op := .draw, w := 1, h := 1 }).nb →
      Memory.read [] (pixAddr { Latches.reset with op := .draw, w := 1, h := 1 } i j)
        = Memory.read [(7, 0xFF#8)] (pixAddr { Latches.reset with op := .draw, w := 1, h := 1 } i j) := by
  intro i j hj hi _
  have hj : j < 1 := hj
  obtain rfl : i = 0 := by omega
  obtain rfl : j = 0 := by omega
  rfl

/-- PackedBitIsThreshold. -/
theorem witness_bit_positions : (0 : Nat) < 8 ∧ (7 : Nat) < 8 := by decide

/-- PackedLength, DrawWindowIsInsideThePanel, RightEdgeIsTruncated, DrawBytesLandInTheirWindow: V13's and V15's
arguments, the last panel pixel, and a bitmap that fills bitmap memory. -/
theorem witness_draw_args :
    drawArgsValid BlockInstance.default.params { Latches.reset with x := 13, y := 5, w := 10, h := 3, base := 0x200 } = true
    ∧ 13 / 8 * 8 + 10 ≤ BlockInstance.default.params.panelWidth
    ∧ 5 + 3 ≤ BlockInstance.default.params.panelHeight
    ∧ drawArgsValid BlockInstance.default.params { Latches.reset with x := 197, w := 4, h := 1 } = true
    ∧ BlockInstance.default.params.panelWidth < (197#16).toNat + (4#16).toNat
    ∧ drawArgsValid BlockInstance.default.params { Latches.reset with x := 199, y := 199, w := 65535, h := 65535 } = true
    ∧ BlockInstance.default.params.busyWaitMode = .poll := by decide

/-- AddressCommandsSendTheirBytes and ClearFillsThePanel: the panel's last pixel and byte column. -/
theorem witness_last_pixel : 199 < BlockInstance.default.params.panelWidth
    ∧ 199 < BlockInstance.default.params.panelHeight ∧ 24 < BlockInstance.default.params.panelWidth / 8
    ∧ BlockInstance.default.params.busyWaitMode = .poll := by decide

/-- BlockResetRestoresResetValues: an assertion in the fault, and with the input asserted a register read and the
release. -/
theorem witness_block_reset : (∃ t, step (withHost faulted [.resetInput true]) = .next t
      ∧ (withHost faulted [.resetInput true]).status.fault = true ∧ t.status.fault = false)
    ∧ (∃ t, step { State.reset with host := [.read 0x04#8 32], resetInput := true } = .next t)
    ∧ ∃ t, step { State.reset with host := [.resetInput false], resetInput := true } = .next t :=
  ⟨⟨_, rfl, rfl, rfl⟩, step_answers (by decide), step_answers (by decide)⟩

/-- An idle block whose reset input is asserted is a good state too. -/
theorem inv_in_reset : Inv { State.reset with resetInput := true } where
  status := ⟨by decide, by decide, by decide, nofun⟩
  sequencer := ⟨fun _ => ⟨rfl, rfl, rfl, rfl⟩, nofun, nofun, nofun, nofun, nofun, nofun, nofun⟩
  memory := ⟨rfl, nofun, .nil, nofun⟩
  pin := nofun
  reset := fun _ => rfl

/-- A REFRESH waiting at its WaitIdle, with a High reading's wait still to come, is a good state. -/
theorem inv_polling : Inv { polling [] with timer := some 100 } where
  status := ⟨by decide, by decide, by decide, by decide⟩
  sequencer := by
    constructor
    · exact fun h => absurd rfl h
    · decide
    · decide
    · exact fun _ => rfl
    · exact fun _ => .inr ⟨rfl, rfl⟩
    · decide
    · decide
    · decide
  memory := ⟨rfl, nofun, .nil, nofun⟩
  pin := nofun
  reset := nofun

/-- StepKeepsInvariant and GoodStateNeverStops: that state, stepping, and a host inside the interface. -/
theorem witness_good_state : Inv { polling [] with timer := some 100 } ∧ HostOk { polling [] with timer := some 100 }
    ∧ ∃ t, step { polling [] with timer := some 100 } = .next t :=
  ⟨inv_polling, nofun, step_answers (by decide)⟩

end Sys2Proof.Tests
end

section
/-! PROOFS. What a step keeps of the instance and of bitmap memory (R13, R31, R50, R62), and what a host memory write
does to it. -/

namespace Sys2Proof.Machine

/-! ## `OP` writes and WAIT: what they never change -/

@[simp] theorem State.admission_inst (op : OpCode) (mode : LutMode) (fill : Byte) (s : State) :
    (s.admission op mode fill).inst = s.inst := by
  rcases s.admission_cases op mode fill with ⟨-, e⟩ | ⟨-, -, -, e⟩ | ⟨-, -, -, -, e⟩ | ⟨-, -, -, e⟩ <;> simp [e]
@[simp] theorem State.admission_bitmap (op : OpCode) (mode : LutMode) (fill : Byte) (s : State) :
    (s.admission op mode fill).bitmap = s.bitmap := by
  rcases s.admission_cases op mode fill with ⟨-, e⟩ | ⟨-, -, -, e⟩ | ⟨-, -, -, -, e⟩ | ⟨-, -, -, e⟩ <;> simp [e]

@[simp] theorem State.onOpWrite_inst (op : OpCode) (mode : LutMode) (fill : Byte) (s : State) :
    (s.onOpWrite op mode fill).inst = s.inst := by unfold State.onOpWrite; split <;> simp
@[simp] theorem State.onOpWrite_bitmap (op : OpCode) (mode : LutMode) (fill : Byte) (s : State) :
    (s.onOpWrite op mode fill).bitmap = s.bitmap := by unfold State.onOpWrite; split <;> simp

@[simp] theorem State.onIllegalWrite_inst (s : State) : s.onIllegalWrite.inst = s.inst := by
  unfold State.onIllegalWrite; split_ifs <;> simp
@[simp] theorem State.onIllegalWrite_bitmap (s : State) : s.onIllegalWrite.bitmap = s.bitmap := by
  unfold State.onIllegalWrite; split_ifs <;> simp

@[simp] theorem State.waitTurn_inst (s : State) : s.waitTurn.inst = s.inst := by
  unfold State.waitTurn; split <;> rfl
@[simp] theorem State.waitTurn_bitmap (s : State) : s.waitTurn.bitmap = s.bitmap := by
  unfold State.waitTurn; split <;> rfl

/-! ## What a step keeps of the instance and of bitmap memory -/

/-- The block itself only reads bitmap memory (R52): appending an event, going on, and ending the op all leave it. -/
theorem blockStep_inst_bitmap {s t : State} (h : blockStep s = .next t) :
    t.inst = s.inst ∧ t.bitmap = s.bitmap := by
  obtain ⟨-, rfl⟩ | ⟨-, m, -, hm⟩ := blockStep_cases h
  · exact ⟨rfl, rfl⟩
  · obtain ⟨s', e, core, -, ⟨-, rfl⟩ | ⟨-, rfl | rfl⟩⟩ := runMicroStep_shape hm <;>
      simp [core.inst, core.bitmap]

/-- A host action leaves bitmap memory as it was, or is the memory write whose bytes it takes. -/
theorem hostAct_inst_bitmap {a : HostAction} {s t : State} (h : hostAct a s = .next t) :
    t.inst = s.inst ∧ (t.bitmap = s.bitmap
      ∨ ∃ addr bytes, a = .memWrite addr bytes ∧ t.bitmap = s.bitmap.writeBytes addr.toNat bytes) := by
  obtain ⟨-, hb⟩ | ⟨b, -, rfl⟩ | ⟨w, i, op, mode, fill, -, -, -, rfl⟩ | ⟨w, r, -, -, rfl⟩ | ⟨o, v, -, -, rfl⟩
    | ⟨v, rfl, -⟩ | ⟨-, rfl⟩ | ⟨addr, bytes, rfl, -, rfl⟩ := hostAct_cases h
  · exact (blockStep_inst_bitmap hb).imp_right .inl
  · simp
  · simp
  · simp
  · simp
  · simp
  · simp
  · exact ⟨rfl, .inr ⟨addr, bytes, rfl, rfl⟩⟩

/-- Holding the reset turns a next state into a held one and leaves every stop. -/
theorem heldInReset_eq_next {o : Host.Outcome State Fault Refusal} {t : State} (h : heldInReset o = .next t) :
    ∃ u, o = .next u ∧ t = u.holdReset := by
  cases o with
  | next u => exact ⟨u, rfl, (Host.Outcome.next.inj h).symm⟩
  | fault r => nomatch h
  | refused r => nomatch h

/-- With the reset input asserted, the host acts on a block at its reset values and the block is held at them (R290). -/
theorem resetTurn_cases {s t : State} (h : resetTurn s = .next t) :
    (s.host = [] ∧ t = s.blockReset)
    ∨ ∃ a rest u, s.host = a :: rest ∧ hostAct a { s.blockReset with host := rest } = .next u ∧ t = u.holdReset := by
  unfold resetTurn at h
  split at h
  next a rest hh =>
    obtain ⟨u, hu, rfl⟩ := heldInReset_eq_next h
    exact .inr ⟨a, rest, u, hh, hu, rfl⟩
  next hh => exact .inl ⟨hh, (Host.Outcome.next.inj h).symm⟩

/-- A step, whatever the level of the reset input, keeps the instance, and keeps bitmap memory too unless the host's
next action is a memory write, whose bytes it takes. -/
theorem step_inst_bitmap {s t : State} (h : step s = .next t) :
    t.inst = s.inst ∧ (t.bitmap = s.bitmap
      ∨ ∃ addr bytes rest, s.host = .memWrite addr bytes :: rest
        ∧ t.bitmap = s.bitmap.writeBytes addr.toNat bytes) := by
  obtain ⟨-, hs⟩ | ⟨-, hs⟩ := step_turns s <;> rw [hs] at h
  · obtain ⟨-, rfl⟩ | ⟨a, rest, u, hh, ha, rfl⟩ := resetTurn_cases h
    · simp
    · obtain ⟨hi, hm | ⟨addr, bytes, rfl, hm⟩⟩ := hostAct_inst_bitmap ha
      · exact ⟨by simpa using hi, .inl (by simpa using hm)⟩
      · exact ⟨by simpa using hi, .inr ⟨addr, bytes, rest, hh, by simpa using hm⟩⟩
  · obtain ⟨-, hb⟩ | ⟨a, rest, hh, ha⟩ := releasedTurn_cases h
    · exact (blockStep_inst_bitmap hb).imp_right .inl
    · obtain ⟨hi, hm | ⟨addr, bytes, rfl, hm⟩⟩ := hostAct_inst_bitmap ha
      · exact ⟨hi, .inl hm⟩
      · exact ⟨hi, .inr ⟨addr, bytes, rest, hh, hm⟩⟩

/-- Settles O60, the instance's half of `step_inst_bitmap`. -/
theorem noStepChangesTheInstance : Obligations.NoStepChangesTheInstance :=
  fun _ _ h => (step_inst_bitmap h).1

/-- Settles O21: `step_inst_bitmap` leaves only the host's memory write. -/
theorem onlyTheHostWritesBitmap : Obligations.OnlyTheHostWritesBitmap := by
  intro s t h hno a
  obtain ⟨-, hm | ⟨addr, bytes, rest, hh, -⟩⟩ := step_inst_bitmap h
  · rw [hm]
  · exact absurd hh (hno addr bytes rest)

/-! ## A host memory write -/

/-- The whole next state of a host memory write within bitmap memory (R13, R50). -/
theorem step_of_memWrite {s : State} {addr : Word} {bytes : List Byte} {rest : List HostAction}
    (hr : s.resetInput = false) (hh : s.host = .memWrite addr bytes :: rest)
    (hfit : addr.toNat + bytes.length ≤ s.params.bmpMemBytes) :
    step s = .next { s with
      host := rest
      bitmap := s.bitmap.writeBytes addr.toNat bytes
      touched := insertAddrs s.touched addr.toNat bytes.length } := by
  rw [step_of_released hr]
  simp only [releasedTurn, hh, hostAct, hostMemWrite]
  exact if_pos hfit

/-- Settles O20 from `step_of_memWrite` and the laws of `Memory.writeBytes` and `insertAddrs`. -/
theorem hostMemWriteStoresItsBytes : Obligations.HostMemWriteStoresItsBytes := by
  intro s addr bytes rest hr hwf hh hfit
  refine ⟨_, step_of_memWrite hr hh hfit, ?readsBack, ?keepsOthers, ?records, rfl⟩
  case readsBack => exact fun k hk => Memory.read_writeBytes_same hwf hk
  case keepsOthers => exact fun a ha => Memory.read_writeBytes_other ha
  case records => exact fun a => mem_insertAddrs

end Sys2Proof.Machine
end

section
/-! PROOFS. What the step lists look like from any of their steps (R21, R86, R131, R168). -/

namespace Sys2Proof.Machine

/-- The next step is the loop step of a frame stream (R36). -/
def startsStream (l : List MicroStep) : Bool := l.head? == some .fillByte || l.head? == some .packByte

/-- What may stand after a step in the step list of `op`: after a command byte its data bytes (R86), and data bytes
nowhere else; after WRITE_RAM the op's own stream, as the last step (R180, R190), and a stream nowhere else. -/
def followsOk (op : OpCode) (m : MicroStep) (rest : List MicroStep) : Bool :=
  match m with
  | .bus c =>
    if c = .writeRam then (op == .clear && rest == [.fillByte]) || (op == .draw && rest == [.packByte])
    else dataDue rest == payloadLength c && !startsStream rest
  | .dataByte => !startsStream rest
  | .fillByte => rest.isEmpty
  | .packByte => rest.isEmpty
  | .setPin _ => dataDue rest == 0 && !startsStream rest
  | .delay _ => dataDue rest == 0 && !startsStream rest
  | .poll => dataDue rest == 0 && !startsStream rest

/-- `followsOk` at every step of a list. -/
def sequenced (op : OpCode) : List MicroStep → Bool
  | [] => true
  | m :: rest => followsOk op m rest && sequenced op rest

/-- The step lists of R130, R135, R180, R190, R195 and R215 are put together so. -/
theorem stepList_sequenced (p : Params) (op : OpCode) : sequenced op (stepList p op) = true := by
  obtain ⟨_, _, _, _, _, _, _, mode, _, _⟩ := p
  cases op <;> cases mode <;> rfl

theorem followsOk_of_sequenced {op : OpCode} {m : MicroStep} {l : List MicroStep} {k : Nat}
    (hl : sequenced op l = true) (hm : l[k]? = some m) : followsOk op m (l.drop (k + 1)) = true := by
  induction l generalizing k with
  | nil => simp at hm
  | cons x l ih =>
    obtain ⟨hx, hl⟩ := Bool.and_eq_true_iff.mp hl
    cases k with
    | zero =>
      obtain rfl : x = m := by simpa using hm
      exact hx
    | succ k => exact ih hl (by simpa using hm)

/-- The steps after `sp` fit the step `sp` names. -/
theorem State.steps_follow {s : State} {m : MicroStep} (hm : s.steps[s.sp]? = some m) :
    followsOk s.latches.op m (s.steps.drop (s.sp + 1)) = true :=
  followsOk_of_sequenced (stepList_sequenced _ _) hm

/-- An op starts with neither a data byte nor a stream. -/
theorem stepList_head (p : Params) (op : OpCode) :
    0 < (stepList p op).length ∧ dataDue (stepList p op) = 0 ∧ startsStream (stepList p op) = false := by
  cases op <;> exact ⟨Nat.succ_pos _, rfl, rfl⟩

/-- INIT's list is longer than its reset pulse. -/
theorem stepList_init_length (p : Params) : 2 < (stepList p .init).length := by
  simp [stepList, physicalResetSteps, transaction]

/-- RST goes Low in INIT's first step only (R131). -/
theorem stepList_setPin_low {p : Params} {op : OpCode} {k : Nat} (h : (stepList p op)[k]? = some (.setPin .low)) :
    op = .init ∧ k = 0 := by
  cases k with
  | zero => cases op <;> cases h; exact ⟨rfl, rfl⟩
  | succ k =>
    have hmem : MicroStep.setPin .low ∈ (stepList p op).tail := List.mem_of_getElem? (by simpa using h)
    cases op <;> cases hmode : p.busyWaitMode <;>
      simp [stepList, physicalResetSteps, streamPreambleSteps, setMemoryWindowSteps, setAddressPointerSteps,
        waitIdleSteps, hmode, transaction] at hmem

/-- The data bytes due at a list with a first step: none but where that step is one. -/
theorem dataDue_cons (m : MicroStep) (l : List MicroStep) :
    dataDue (m :: l) = if m = .dataByte then dataDue l + 1 else 0 := by
  by_cases h : m = .dataByte <;> simp [dataDue, h]

/-- The data bytes due at the step `sp` names. -/
theorem State.dataDue_at {s : State} {m : MicroStep} (hm : s.steps[s.sp]? = some m) :
    dataDue (s.steps.drop s.sp) = if m = .dataByte then dataDue (s.steps.drop (s.sp + 1)) + 1 else 0 := by
  obtain ⟨hlt, rfl⟩ := List.getElem?_eq_some_iff.mp hm
  rw [List.drop_eq_getElem_cons hlt, dataDue_cons]

/-- Where no stream starts, the counter must not exist (R33). -/
theorem streamFits_of_none {s : State} (hs : startsStream (s.steps.drop s.sp) = false) (hn : s.stream = none) :
    StreamFits s := by
  simp only [startsStream, List.head?_drop, Bool.or_eq_false_iff, beq_eq_false_iff_ne] at hs
  unfold StreamFits
  split
  next h => exact absurd h hs.1
  next h => exact absurd h hs.2
  next => exact hn

end Sys2Proof.Machine
end

section
/-! PROOFS. The invariant, part by part: what it asks of a block at rest and of one that runs, what ends an op, and the
steps of a running op, one lemma each. -/

namespace Sys2Proof.Machine

/-! ## The invariant sees only some fields -/

/-- `t` runs the op that `s` runs, with the same flags, memory and reset input: only its step differs. -/
structure SameOp (s t : State) : Prop where
  inst : t.inst = s.inst
  phase : t.phase = s.phase
  status : t.status = s.status
  latches : t.latches = s.latches
  resetInput : t.resetInput = s.resetInput
  bitmap : t.bitmap = s.bitmap
  touched : t.touched = s.touched

theorem SameOp.steps {s t : State} (h : SameOp s t) : t.steps = s.steps :=
  State.steps_congr h.inst (by rw [h.latches])

theorem StatusInv.congr {s t : State} (h : StatusInv s) (hp : t.phase = s.phase) (hs : t.status = s.status) :
    StatusInv t where
  busy_iff_run := by rw [hs, hp]; exact h.busy_iff_run
  fault_iff_fault := by rw [hs, hp]; exact h.fault_iff_fault
  not_init_and_asleep := by rw [hs]; exact h.not_init_and_asleep
  fault_code := by rw [hs, hp]; exact h.fault_code

/-- The record of written addresses may also be emptied, as acceptance does on an ordered platform. -/
theorem MemoryInv.congr {s t : State} (h : MemoryInv s) (hi : t.inst = s.inst) (hb : t.bitmap = s.bitmap)
    (ht : t.touched = s.touched ∨ t.touched = []) : MemoryInv t := by
  obtain ⟨h1, h2, h3, h4⟩ := h
  have hp : t.params = s.params := by rw [State.params, hi]
  refine ⟨by rwa [hb], by rwa [hb, hp], ?_, fun a ha => ?_⟩ <;> rcases ht with ht | ht
  · rwa [ht]
  · simp [ht]
  · rw [hp]; exact h4 a (ht ▸ ha)
  · simp [ht] at ha

/-- A running op's reset input is released. -/
theorem Inv.released {s : State} (hi : Inv s) (hrun : s.phase = .run) : s.resetInput = false := by
  by_contra hr
  have := congrArg State.phase (hi.reset (by simpa using hr))
  simp [hrun] at this

/-! ## At rest -/

/-- What the invariant asks of a block at rest, besides the flags and memory. -/
structure AtRest (t : State) : Prop where
  phase : t.phase ≠ .run
  sp : t.sp = 0
  payload : t.payload = []
  stream : t.stream = none
  timer : t.timer = none
  rst : t.rst = .high

theorem Inv.atRest {s : State} (hi : Inv s) (hp : s.phase ≠ .run) : AtRest s := by
  obtain ⟨hsp, hpay, hstr, htim⟩ := hi.sequencer.at_rest hp
  refine ⟨hp, hsp, hpay, hstr, htim, ?_⟩
  cases h : s.rst with
  | low => exact absurd (hi.pin h).1 hp
  | high => rfl

theorem Inv.of_atRest {t : State} (hr : AtRest t) (hs : StatusInv t) (hm : MemoryInv t) (hreset : ResetInv t) :
    Inv t where
  status := hs
  sequencer := by
    constructor
    case at_rest => exact fun _ => ⟨hr.sp, hr.payload, hr.stream, hr.timer⟩
    all_goals exact fun h => absurd h hr.phase
  memory := hm
  pin := fun h => by simp [hr.rst] at h
  reset := hreset

/-- A block that stands at its reset values is good (R42). -/
theorem Inv.of_held {t : State} (h : t.blockReset = t) (hm : MemoryInv t) : Inv t := by
  refine .of_atRest ?_ ?_ hm fun _ => h
  all_goals rw [← h]; constructor
  all_goals simp [Status.reset]

theorem phaseAfterEnd_ne_run (code : ErrCode) (ph : Phase) : phaseAfterEnd code ph ≠ .run := by
  unfold phaseAfterEnd; split_ifs <;> simp_all

/-- The flags after `End(code)` (R233) of a block whose flags agreed. -/
theorem StatusInv.ended {u v : State} {code : ErrCode} (hu : StatusInv u)
    (hp : v.phase = phaseAfterEnd code u.phase) (hs : v.status = u.status.ended code)
    (hcode : u.phase = .fault → code = .transportFailure ∨ code = .faulted) : StatusInv v := by
  have hf := hu.fault_iff_fault
  constructor <;> rw [hs]
  case busy_iff_run => simpa [hp] using phaseAfterEnd_ne_run code u.phase
  case fault_iff_fault =>
    rw [hp]
    by_cases hc : code = .transportFailure
    · simp [hc, phaseAfterEnd]
    · cases h : u.phase <;> simp [phaseAfterEnd, hc, h] at hf ⊢ <;> exact hf
  case not_init_and_asleep => exact hu.not_init_and_asleep
  case fault_code =>
    intro h
    by_cases hc : code = .transportFailure
    · exact .inl hc
    · refine hcode ?_
      cases hph : u.phase <;> simp [hp, phaseAfterEnd, hc, hph] at h ⊢

/-- `End(code)` of an op leaves a good state at rest (R32-R34, R233). -/
theorem Inv.endOp {u : State} {code : ErrCode} (hs : StatusInv u) (hm : MemoryInv u) (hrel : u.resetInput = false)
    (hrst : u.rst = .high) (hcode : u.phase = .fault → code = .transportFailure ∨ code = .faulted) :
    Inv (u.endOp code) := by
  refine .of_atRest ⟨phaseAfterEnd_ne_run _ _, rfl, rfl, rfl, rfl, hrst⟩ (hs.ended rfl rfl hcode)
    (hm.congr rfl rfl (.inl rfl)) fun h => ?_
  simp [hrel] at h

/-- A code that admission gives, before it latches anything, leaves a good state at rest (R231). -/
theorem Inv.endWith {s : State} {code : ErrCode} (hi : Inv s) (hp : s.phase ≠ .run) (hrel : s.resetInput = false)
    (hcode : s.phase = .fault → code = .transportFailure ∨ code = .faulted) : Inv (s.endWith code) := by
  obtain ⟨-, -, hpay, hstr, htim, hrst⟩ := hi.atRest hp
  refine .of_atRest ⟨phaseAfterEnd_ne_run _ _, rfl, hpay, hstr, htim, hrst⟩ (hi.status.ended rfl rfl hcode)
    (hi.memory.congr rfl rfl (.inl rfl)) fun h => ?_
  simp [hrel] at h

/-! ## Running -/

@[simp] theorem Status.opDone_busy (l : Latches) (t : Status) : (t.opDone l).busy = t.busy := by
  unfold Status.opDone; split <;> rfl

/-- What the invariant asks of a running block, besides the flags, the latches and memory. -/
structure AtStep (t : State) : Prop where
  sp_in_list : t.sp < t.steps.length
  payload_due : t.payload.length = dataDue (t.steps.drop t.sp)
  stream_fits : StreamFits t
  timer_fits : t.timer = none ∨ (t.timer = some Config.pollIntervalMs ∧ t.steps[t.sp]? = some .poll)
  pin : t.rst = .low → t.latches.op = .init ∧ (t.sp = 1 ∨ t.sp = 2)

theorem Inv.of_sameOp {s t : State} (hi : Inv s) (hrun : s.phase = .run) (same : SameOp s t) (hat : AtStep t) :
    Inv t := by
  obtain ⟨hinst, hphase, hstatus, hlatches, hreset, hbitmap, htouched⟩ := same
  have hparams : t.params = s.params := by rw [State.params, hinst]
  have hrun' : t.phase = .run := hphase.trans hrun
  refine ⟨hi.status.congr hphase hstatus, ?_, hi.memory.congr hinst hbitmap (.inl htouched),
    fun h => ⟨hrun', hat.pin h⟩, fun h => ?_⟩
  · constructor
    case at_rest => exact fun h => absurd hrun' h
    case sp_in_list => exact fun _ => hat.sp_in_list
    case payload_due => exact fun _ => hat.payload_due
    case stream_fits => exact fun _ => hat.stream_fits
    case timer_fits => exact fun _ => hat.timer_fits
    case init_running => rw [hlatches, hstatus]; exact fun _ => hi.sequencer.init_running hrun
    case other_running => rw [hlatches, hstatus]; exact fun _ => hi.sequencer.other_running hrun
    case draw_checked => rw [hlatches, hparams]; exact fun _ => hi.sequencer.draw_checked hrun
  · rw [hreset, hi.released hrun] at h; cases h

/-- RST is High at every step but those of the reset pulse (R37, R131). -/
theorem Inv.rst_high {s : State} {m : MicroStep} (hi : Inv s) (hm : s.steps[s.sp]? = some m)
    (hd : ∀ ms, m ≠ .delay ms) (hl : ∀ lvl, m ≠ .setPin lvl) : s.rst = .high := by
  cases h : s.rst with
  | high => rfl
  | low =>
    obtain ⟨-, hop, hsp | hsp⟩ := hi.pin h <;> rw [State.steps, hop, hsp] at hm <;> cases hm
    · exact absurd rfl (hd _)
    · exact absurd rfl (hl _)

/-- A failed event ends a running op in a good state (R262). -/
theorem Inv.raise {s u : State} (hi : Inv s) (hrun : s.phase = .run) (same : SameOp s u) (hrst : u.rst = .high) :
    Inv u.raiseTransportFailure :=
  .endOp (hi.status.congr same.phase same.status) (hi.memory.congr same.inst same.bitmap (.inl same.touched))
    (same.resetInput.trans (hi.released hrun)) hrst fun _ => .inl rfl

/-- An op that has finished its step list ends in a good state (R130, R136, R215, R233). -/
theorem Inv.complete {s u : State} (hi : Inv s) (hrun : s.phase = .run) (same : SameOp s u) (hrst : u.rst = .high) :
    Inv u.complete := by
  obtain ⟨hinst, hphase, hstatus, hlatches, hreset, hbitmap, htouched⟩ := same
  have hinit := hi.sequencer.init_running hrun
  obtain ⟨hbusy, hfault, hflags, hcode⟩ := hi.status
  refine .endOp (u := { u with status := u.status.opDone u.latches }) ?_
    (hi.memory.congr hinst hbitmap (.inl htouched)) (hreset.trans (hi.released hrun)) hrst ?_
  · rw [hrun] at hbusy hfault
    rw [hstatus, hlatches]
    constructor <;> simp only [hphase, hrun]
    case busy_iff_run => simpa using hbusy
    case fault_iff_fault => simpa using hfault
    case not_init_and_asleep =>
      unfold Status.opDone
      split
      next hop => simp [hinit hop]
      all_goals simp at hflags ⊢
      all_goals exact hflags
    case fault_code => nofun
  · simp [hphase, hrun]

/-- A performed step leaves a good state, if what the next step finds fits it (R21). -/
theorem Inv.advance {s u : State} (hi : Inv s) (hrun : s.phase = .run) (same : SameOp s u) (hsp : u.sp = s.sp)
    (htimer : u.timer = none) (hpin : u.rst = .low → s.latches.op = .init ∧ s.sp ≤ 1)
    (hpay : u.payload.length = dataDue (s.steps.drop (s.sp + 1)))
    (hstream : s.sp + 1 < s.steps.length → StreamFits { u with sp := s.sp + 1 }) : Inv u.advance := by
  by_cases hlt : s.sp + 1 < s.steps.length
  · rw [State.advance_of_lt (by rwa [same.steps, hsp]), hsp]
    have hsteps : State.steps { u with sp := s.sp + 1 } = s.steps := same.steps
    refine hi.of_sameOp hrun { same with } ⟨?_, ?_, hstream hlt, .inl htimer, fun h => ?_⟩
    · rwa [hsteps]
    · rwa [hsteps]
    · obtain ⟨hop, hle⟩ := hpin h
      rw [same.latches]
      exact ⟨hop, by simp only; omega⟩
  · rw [State.advance_of_last (by rw [same.steps, hsp]; omega)]
    refine hi.complete hrun same ?_
    cases h : u.rst with
    | high => rfl
    | low =>
      obtain ⟨hop, hle⟩ := hpin h
      have := stepList_init_length s.params
      rw [State.steps, hop] at hlt
      omega

end Sys2Proof.Machine
end

section
/-! PROOFS. Every event of a running op leaves a good state: one lemma for each kind of step (R21, R36). -/

namespace Sys2Proof.Machine

theorem SameCore.sameOp_emit {s s' : State} (h : SameCore s s') (e : Event) : SameOp s (s'.emit e) :=
  ⟨h.inst, h.phase, h.status, h.latches, h.resetInput, h.bitmap, h.touched⟩

/-! ## The counter a step asks for -/

theorem streamFits_fill {u : State} {n : Nat} (hm : u.steps[u.sp]? = some .fillByte)
    (hs : u.stream = some (.fill (n + 1))) (hn : n < frameBytes u.params) : StreamFits u := by
  unfold StreamFits; rw [hm]; exact ⟨n, hs, hn⟩

theorem streamFits_pack {u : State} {r g : Nat} (hm : u.steps[u.sp]? = some .packByte)
    (hs : u.stream = some (.pack r g)) (hr : r < (drawRect u.params u.latches).nr)
    (hg : g < (drawRect u.params u.latches).nb) : StreamFits u := by
  unfold StreamFits; rw [hm]; exact ⟨r, g, hs, hr, hg⟩

/-- A frame has at least one byte (R8, R10). -/
theorem frameBytes_pos (i : BlockInstance) : 0 < frameBytes i.params := by
  have h := i.ok
  simp only [Params.wf, Params.widthOk, Params.heightOk, Bool.and_eq_true, decide_eq_true_eq] at h
  exact Nat.mul_pos (Nat.div_pos (by omega) (by omega)) (by omega)

/-- The counter after a byte of the window names another byte of it (R191). -/
theorem nextPack_fits {nb nr r g : Nat} {c : StreamCounter} (hr : r < nr) (hg : g < nb)
    (h : nextPack nb nr r g = some c) : ∃ r' g', c = .pack r' g' ∧ r' < nr ∧ g' < nb := by
  unfold nextPack at h
  split_ifs at h with h1 h2 <;> obtain rfl := Option.some.inj h
  · exact ⟨r, g + 1, rfl, hr, h1⟩
  · exact ⟨r + 1, 0, rfl, h2, by omega⟩

section
variable {s t : State} {m : MicroStep} (hi : Inv s) (hrun : s.phase = .run)
include hi hrun

/-- The timer belongs to the poll (R34). -/
theorem Inv.timer_none (hm : s.steps[s.sp]? = some m) (hp : m ≠ .poll) : s.timer = none := by
  obtain h | ⟨-, h⟩ := hi.sequencer.timer_fits hrun
  · exact h
  · exact absurd (Option.some.inj (hm.symm.trans h)) hp

/-- No stream counter exists at a step that is not a stream's (R33). -/
theorem Inv.stream_none (hm : s.steps[s.sp]? = some m) (hf : m ≠ .fillByte) (hp : m ≠ .packByte) :
    s.stream = none := by
  have h := hi.sequencer.stream_fits hrun
  unfold StreamFits at h
  rw [hm] at h
  cases m with
  | fillByte => exact absurd rfl hf
  | packByte => exact absurd rfl hp
  | setPin | delay | bus | dataByte | poll => exact h

/-- No data byte is due at a step that is not one (R86). -/
theorem Inv.payload_nil (hm : s.steps[s.sp]? = some m) (hd : m ≠ .dataByte) : s.payload = [] := by
  have h := hi.sequencer.payload_due hrun
  rw [State.dataDue_at hm, if_neg hd] at h
  exact List.length_eq_zero_iff.mp h

/-- A bus event leaves a good state if what follows an `ok` does. `u` is the state it is performed in. -/
theorem Inv.busEvent {u : State} {e : Resp → Event} {next : State → State} (core : SameCore s u) (hrst : u.rst = .high)
    (hok : Inv (next (u.takeResp.emit (e .ok)))) : Inv (u.busEvent e next) := by
  obtain ⟨-, he⟩ | ⟨-, he⟩ := State.busEvent_cases e next u <;> rw [he]
  · exact hok
  · refine hi.raise hrun ?_ (by simpa using hrst)
    obtain ⟨hinst, hphase, -, hstatus, -, -, -, hlatches, hreset, -, hbitmap, htouched, -, -⟩ := core
    constructor <;> simpa

/-- `Inv.advance` where the step carries no data byte: none is due before it or after it. -/
theorem Inv.advance_quiet {u : State} (same : SameOp s u) (hsp : u.sp = s.sp) (hm : s.steps[s.sp]? = some m)
    (htimer : u.timer = none) (hpay : u.payload = s.payload) (hstream : u.stream = none)
    (hd : m ≠ .dataByte) (hb : ∀ c, m ≠ .bus c) (hpin : u.rst = .low → s.latches.op = .init ∧ s.sp ≤ 1) :
    Inv u.advance := by
  have hfollow := State.steps_follow hm
  have hrest : dataDue (s.steps.drop (s.sp + 1)) = 0 ∧ startsStream (s.steps.drop (s.sp + 1)) = false := by
    cases m with
    | bus c => exact absurd rfl (hb c)
    | dataByte => exact absurd rfl hd
    | fillByte | packByte => simp only [followsOk, List.isEmpty_iff] at hfollow; rw [hfollow]; exact ⟨rfl, rfl⟩
    | setPin | delay | poll => simpa [followsOk] using hfollow
  refine hi.advance hrun same hsp htimer hpin ?_ fun _ => streamFits_of_none ?_ hstream
  · rw [hrest.1, hpay, hi.payload_nil hrun hm hd]; rfl
  · exact same.steps ▸ hrest.2

/-! ## The reset pulse -/

theorem Inv.after_setPin {lvl : Level} (hm : s.steps[s.sp]? = some (.setPin lvl)) : Inv (s.setPinStep lvl) := by
  refine hi.advance_quiet hrun (by constructor <;> rfl) rfl hm (hi.timer_none hrun hm nofun) rfl
    (hi.stream_none hrun hm nofun nofun) nofun nofun fun h => ?_
  obtain rfl : lvl = .low := h
  obtain ⟨hop, hsp⟩ := stepList_setPin_low hm
  exact ⟨hop, by omega⟩

theorem Inv.after_delay {ms : Nat} (hm : s.steps[s.sp]? = some (.delay ms)) : Inv (s.delayStep ms) := by
  refine hi.advance_quiet hrun (by constructor <;> rfl) rfl hm (hi.timer_none hrun hm nofun) rfl
    (hi.stream_none hrun hm nofun nofun) nofun nofun fun h => ?_
  obtain ⟨-, hop, hsp | hsp⟩ := hi.pin h
  · exact ⟨hop, by omega⟩
  · rw [State.steps, hop, hsp] at hm; cases hm

/-! ## Transactions -/

/-- The counter after a command byte fits the step that follows it (R181, R182, R191). -/
theorem Inv.streamFits_after_bus {u : State} {c : CmdName} (same : SameOp s u) (hm : s.steps[s.sp]? = some (.bus c))
    (hstream : u.stream = if c = .writeRam then openStream s.params s.latches else s.stream) :
    StreamFits { u with sp := s.sp + 1 } := by
  have hfollow := State.steps_follow hm
  by_cases hc : c = .writeRam
  · subst hc
    have hparams : u.params = s.params := by rw [State.params, same.inst]
    have hnext : s.steps[s.sp + 1]? = (s.steps.drop (s.sp + 1)).head? := List.head?_drop.symm
    have hsteps : State.steps { u with sp := s.sp + 1 } = s.steps := same.steps
    rw [if_pos rfl] at hstream
    unfold StreamFits
    simp only [followsOk, if_pos, Bool.or_eq_true, Bool.and_eq_true, beq_iff_eq] at hfollow
    obtain ⟨hop, hrest⟩ | ⟨hop, hrest⟩ := hfollow <;> simp only [hsteps, hnext, hrest, List.head?_cons]
    · have hpos : 0 < frameBytes s.params := frameBytes_pos s.inst
      refine ⟨frameBytes s.params - 1, ?_, ?_⟩
      · rw [hstream]; simp [openStream, hop]; omega
      · change _ < frameBytes u.params; rw [hparams]; omega
    · exact ⟨0, 0, by rw [hstream]; simp [openStream, hop], Nat.succ_pos _, Nat.succ_pos _⟩
  · simp only [followsOk, if_neg hc, Bool.and_eq_true, Bool.not_eq_true'] at hfollow
    rw [if_neg hc, hi.stream_none hrun hm nofun nofun] at hstream
    exact streamFits_of_none (same.steps ▸ hfollow.2) hstream

theorem Inv.after_bus {c : CmdName} (hm : s.steps[s.sp]? = some (.bus c))
    (h : exec c.toInstr (s.enterSubsequence c) = .next t) : Inv t := by
  rw [exec_toInstr] at h
  obtain rfl := Host.Outcome.next.inj h
  have hrst := hi.rst_high hm nofun nofun
  refine hi.busEvent hrun (by constructor <;> simp) (by simpa using hrst) (hi.advance hrun ?_ ?_ ?_ ?_ ?_ fun _ => ?_)
  · constructor <;> simp
  · simp
  · simpa using hi.timer_none hrun hm nofun
  · simp [hrst]
  · have hfollow := State.steps_follow hm
    rw [payloadOf_length]
    by_cases hc : c = .writeRam
    · subst hc
      simp only [followsOk, if_pos, Bool.or_eq_true, Bool.and_eq_true, beq_iff_eq] at hfollow
      obtain ⟨-, hrest⟩ | ⟨-, hrest⟩ := hfollow <;> rw [hrest] <;> rfl
    · simp only [followsOk, if_neg hc, Bool.and_eq_true, beq_iff_eq] at hfollow
      exact hfollow.1.symm
  · refine hi.streamFits_after_bus hrun ?_ hm ?_
    · constructor <;> simp
    · simp [streamAfter, State.params]

theorem Inv.after_dataByte (hm : s.steps[s.sp]? = some .dataByte) (h : dataByteStep s = .next t) : Inv t := by
  unfold dataByteStep at h
  split at h
  next b bs hp =>
    obtain rfl := Host.Outcome.next.inj h
    have hrst := hi.rst_high hm nofun nofun
    have hdue := hi.sequencer.payload_due hrun
    rw [State.dataDue_at hm, hp, List.length_cons, if_pos rfl] at hdue
    have hfollow := State.steps_follow hm
    simp only [followsOk, Bool.not_eq_true'] at hfollow
    refine hi.busEvent hrun (by constructor <;> rfl) hrst (hi.advance hrun ?_ ?_ ?_ ?_ ?_ fun _ => ?_)
    · constructor <;> simp
    · simp
    · simpa using hi.timer_none hrun hm nofun
    · simp [hrst]
    · exact Nat.succ.inj hdue
    · exact streamFits_of_none (by simpa [State.steps, State.params] using hfollow)
        (by simpa using hi.stream_none hrun hm nofun nofun)
  next => cases h

/-! ## WaitIdle -/

/-- An event at a loop step that stays there leaves a good state, if counter and timer fit the step (R36). -/
theorem Inv.stay {u : State} (same : SameOp s u) (hsp : u.sp = s.sp) (hrst : u.rst = .high)
    (hpay : u.payload = s.payload) (hstream : StreamFits u)
    (htimer : u.timer = none ∨ (u.timer = some Config.pollIntervalMs ∧ s.steps[s.sp]? = some .poll)) : Inv u := by
  refine hi.of_sameOp hrun same ⟨?_, ?_, hstream, ?_, fun h => ?_⟩
  · rw [hsp, same.steps]; exact hi.sequencer.sp_in_list hrun
  · rw [hsp, same.steps, hpay]; exact hi.sequencer.payload_due hrun
  · rwa [hsp, same.steps]
  · simp [hrst] at h

theorem Inv.after_poll (hm : s.steps[s.sp]? = some .poll) : Inv s.pollStep := by
  have hrst := hi.rst_high hm nofun nofun
  have hstream := hi.stream_none hrun hm nofun nofun
  have hfits : ∀ {u : State}, SameOp s u → u.sp = s.sp → u.stream = none → StreamFits u := fun same hsp hs => by
    unfold StreamFits; rw [same.steps, hsp, hm]; exact hs
  unfold State.pollStep
  split
  next ms ht =>
    have same : SameOp s { s.emit (.wait ms) with timer := none } := by constructor <;> rfl
    exact hi.stay hrun same rfl hrst rfl (hfits same rfl hstream) (.inl rfl)
  next ht =>
    split
    next =>
      have same : SameOp s (s.takeBusy.emit (.busy .low)) := by constructor <;> simp
      exact hi.advance_quiet hrun same (by simp) hm (by simpa) (by simp) (by simpa) nofun nofun (by simp [hrst])
    next =>
      have same : SameOp s { s.takeBusy.emit (.busy .high) with timer := some Config.pollIntervalMs } := by
        constructor <;> simp
      exact hi.stay hrun same (by simp) (by simpa) (by simp) (hfits same (by simp) (by simpa)) (.inr ⟨rfl, hm⟩)
    next => exact hi.raise hrun (by constructor <;> simp) (by simpa)

/-! ## The streams -/

theorem Inv.after_fillByte (hm : s.steps[s.sp]? = some .fillByte) (h : fillByteStep s = .next t) : Inv t := by
  unfold fillByteStep at h
  split at h
  next n hs =>
    obtain rfl := Host.Outcome.next.inj h
    have hrst := hi.rst_high hm nofun nofun
    have htimer := hi.timer_none hrun hm nofun
    refine hi.busEvent hrun (by constructor <;> rfl) hrst ?_
    split
    next =>
      exact hi.advance_quiet hrun (by constructor <;> simp) (by simp) hm (by simpa) (by simp) rfl nofun nofun
        (by simp [hrst])
    next h0 =>
      have hlt : n < frameBytes s.params := by simpa [StreamFits, hm, hs] using hi.sequencer.stream_fits hrun
      obtain ⟨k, rfl⟩ := Nat.exists_eq_succ_of_ne_zero h0
      refine hi.stay hrun (by constructor <;> simp) (by simp) (by simpa) (by simp) ?_ (.inl (by simpa))
      refine streamFits_fill (by simpa [State.steps, State.params] using hm) rfl ?_
      simp [State.params] at hlt ⊢; omega
  next => cases h

theorem Inv.after_packByte (hm : s.steps[s.sp]? = some .packByte) (h : packByteStep s = .next t) : Inv t := by
  unfold packByteStep at h
  split at h
  next r g hs =>
    split at h
    next =>
      obtain rfl := Host.Outcome.next.inj h
      have hrst := hi.rst_high hm nofun nofun
      have htimer := hi.timer_none hrun hm nofun
      refine hi.busEvent hrun (u := { s with draws := s.draws + 8 }) (by constructor <;> rfl) hrst ?_
      split
      next c hc =>
        obtain ⟨hr, hg⟩ : r < (drawRect s.params s.latches).nr ∧ g < (drawRect s.params s.latches).nb := by
          simpa [StreamFits, hm, hs] using hi.sequencer.stream_fits hrun
        obtain ⟨r', g', rfl, hr', hg'⟩ :=
          nextPack_fits hr hg (by simpa [State.params] using hc)
        refine hi.stay hrun (by constructor <;> simp) (by simp) (by simpa) (by simp) ?_ (.inl (by simpa))
        exact streamFits_pack (by simpa [State.steps, State.params] using hm) rfl
          (by simpa [State.params] using hr') (by simpa [State.params] using hg')
      next =>
        exact hi.advance_quiet hrun (by constructor <;> simp) (by simp) hm (by simpa) (by simp) rfl nofun nofun
          (by simp [hrst])
    next => cases h
  next => cases h

/-! ## The block's turn -/

/-- Every event of a running op leaves a good state. -/
theorem Inv.after_microStep (hm : s.steps[s.sp]? = some m) (h : runMicroStep m s = .next t) : Inv t := by
  cases m with
  | setPin lvl => exact Host.Outcome.next.inj h ▸ hi.after_setPin hrun hm
  | delay ms => exact Host.Outcome.next.inj h ▸ hi.after_delay hrun hm
  | bus c => exact hi.after_bus hrun hm h
  | dataByte => exact hi.after_dataByte hrun hm h
  | poll => exact Host.Outcome.next.inj h ▸ hi.after_poll hrun hm
  | fillByte => exact hi.after_fillByte hrun hm h
  | packByte => exact hi.after_packByte hrun hm h

end

/-- The block's turn keeps the invariant. -/
theorem Inv.after_blockStep {s t : State} (hi : Inv s) (h : blockStep s = .next t) : Inv t := by
  obtain ⟨-, rfl⟩ | ⟨hrun, m, hm, h⟩ := blockStep_cases h
  · exact hi
  · exact hi.after_microStep hrun hm h

end Sys2Proof.Machine
end

section
/-! PROOFS. The host's side of a step: what a running op never sees of it (R29, R230, R234), where admission starts an
op (R231, R232), and the invariant and the trace over every step (R21, R40). -/

namespace Sys2Proof.Machine

/-! ## What the host leaves alone -/

/-- The block's sequencing is untouched, and so is every flag but REJ. -/
structure OpUntouched (s t : State) : Prop where
  inst : t.inst = s.inst
  phase : t.phase = s.phase
  sp : t.sp = s.sp
  status : t.status = { s.status with rej := t.status.rej }
  latches : t.latches = s.latches
  window : t.window = s.window
  pointer : t.pointer = s.pointer
  payload : t.payload = s.payload
  stream : t.stream = s.stream
  timer : t.timer = s.timer
  rst : t.rst = s.rst
  resetInput : t.resetInput = s.resetInput
  trace : t.trace = s.trace

theorem State.reject_untouched (s : State) : OpUntouched s s.reject := by constructor <;> rfl

theorem State.clearRej_untouched (s : State) : OpUntouched s s.clearRej := by constructor <;> rfl

theorem State.regWrite_untouched (o : BitVec 8) (v : Word) (s : State) : OpUntouched s (s.regWrite o v) := by
  constructor <;> simp

theorem State.waitTurn_untouched (s : State) : OpUntouched s s.waitTurn := by
  unfold State.waitTurn; split <;> constructor <;> rfl

theorem State.driveReset_false_untouched {s : State} (h : s.resetInput = false) :
    OpUntouched s (s.driveReset false) := by
  constructor
  case resetInput => exact h.symm
  all_goals rfl

/-- With the reset input released, a host action is the block's turn, the assertion of the reset input, an `OP` write
that admission sees (R230), or leaves the block's sequencing alone. -/
theorem hostAct_released {a : HostAction} {s t : State} (hrel : s.resetInput = false) (h : hostAct a s = .next t) :
    (a = .letBlockRun ∧ blockStep s = .next t)
    ∨ (a = .resetInput true ∧ t = s.driveReset true)
    ∨ (s.phase ≠ .run ∧ ((∃ op mode fill, t = s.clearRej.admission op mode fill) ∨ t = s.onIllegalWrite))
    ∨ OpUntouched s t := by
  obtain ⟨ha, hb⟩ | ⟨b, ha, rfl⟩ | ⟨w, i, op, mode, fill, -, -, -, rfl⟩ | ⟨w, r, -, -, rfl⟩ | ⟨o, v, -, -, rfl⟩
    | ⟨v, rfl, -⟩ | ⟨-, rfl⟩ | ⟨addr, bytes, -, -, rfl⟩ := hostAct_cases h
  · exact .inl ⟨ha, hb⟩
  · cases b
    · exact .inr (.inr (.inr (State.driveReset_false_untouched hrel)))
    · exact .inr (.inl ⟨ha, rfl⟩)
  · by_cases hrun : s.phase = .run
    · rw [State.onOpWrite_of_run hrun]
      exact .inr (.inr (.inr s.reject_untouched))
    · exact .inr (.inr (.inl ⟨hrun, .inl ⟨op, mode, fill, State.onOpWrite_of_not_run hrun⟩⟩))
  · by_cases hrun : s.phase = .run
    · rw [State.onIllegalWrite, if_pos hrun]
      exact .inr (.inr (.inr s.reject_untouched))
    · exact .inr (.inr (.inl ⟨hrun, .inr rfl⟩))
  · exact .inr (.inr (.inr (s.regWrite_untouched o v)))
  · exact .inr (.inr (.inr (by constructor <;> rfl)))
  · exact .inr (.inr (.inr s.waitTurn_untouched))
  · exact .inr (.inr (.inr (by constructor <;> rfl)))

/-- Settles O14: of the four things a host action can be, only leaving the op alone remains. -/
theorem hostCannotDisturbRunningOp : Obligations.HostCannotDisturbRunningOp := by
  intro s t a rest hrel hrun hhost hreset hlet h
  rw [step_of_released hrel] at h
  simp only [releasedTurn, hhost] at h
  obtain ⟨rfl, -⟩ | ⟨rfl, -⟩ | ⟨hp, -⟩ | ⟨-, hphase, hsp, hstatus, hlatches, hwindow, hpointer, hpayload, hstream,
    htimer, hrst, -, htrace⟩ := hostAct_released (s := { s with host := rest }) hrel h
  · exact absurd rfl hlet
  · exact absurd rfl hreset
  · exact absurd hrun hp
  · exact ⟨hphase.trans hrun, hsp, hlatches, hwindow, hpointer, hpayload, hstream, htimer, hrst, htrace, hstatus⟩

/-! ## Admission -/

@[simp] theorem State.admission_trace (op : OpCode) (mode : LutMode) (fill : Byte) (s : State) :
    (s.admission op mode fill).trace = s.trace := by
  rcases s.admission_cases op mode fill with ⟨-, e⟩ | ⟨-, -, -, e⟩ | ⟨-, -, -, -, e⟩ | ⟨-, -, -, e⟩ <;> simp [e]
@[simp] theorem State.onIllegalWrite_trace (s : State) : s.onIllegalWrite.trace = s.trace := by
  unfold State.onIllegalWrite; split_ifs <;> simp

/-- `DrawArgsValid` of what DRAW latches says of the registers what R167 says. -/
theorem drawArgsValid_latch (op : OpCode) (mode : LutMode) (fill : Byte) (s : State) :
    drawArgsValid s.params (s.latch op mode fill).latches = true ↔ DrawRegistersValid s := by
  simp only [drawArgsValid, Bool.and_eq_true, decide_eq_true_eq, and_assoc]
  exact Iff.rfl

/-- Where R231 accepts an op, admission latches its arguments and accepts it. -/
theorem State.admission_of_accepts {op : OpCode} {mode : LutMode} {fill : Byte} {s : State}
    (hf : s.status.fault = false) (hready : op ≠ .init → s.status.init = true ∧ s.status.asleep = false)
    (hargs : op = .draw → DrawRegistersValid s) : s.admission op mode fill = (s.latch op mode fill).accept op := by
  obtain ⟨hf', -⟩ | ⟨-, hop, hnot, -⟩ | ⟨-, -, hop, hbad, -⟩ | ⟨-, -, -, he⟩ := s.admission_cases op mode fill
  · simp [hf] at hf'
  · simp [Status.ready, hready hop] at hnot
  · have := (drawArgsValid_latch op mode fill s).mpr (hargs hop)
    rw [hbad] at this; cases this
  · exact he

/-- The flags of an accepted op, REJ cleared first. -/
theorem Status.accept_setRej (op : OpCode) (t : Status) : (t.setRej false).accept op = acceptedStatus op t := by
  cases op <;> rfl

/-- Settles O12: admission accepts, and its updates are read off field by field. -/
theorem hostOpsStart : Obligations.HostOpsStart := by
  intro s i op mode fill hi hacc
  have hexec : exec i s = .next ((s.clearRej.latch op mode fill).accept op) := by
    rw [exec_of_hostOp hi, State.onOpWrite_of_not_run hacc.not_running,
      State.admission_of_accepts (s := s.clearRej) hacc.no_fault hacc.ready hacc.args]
  exact ⟨_, hexec, ⟨rfl, rfl, Status.accept_setRej op s.status, rfl, rfl⟩, by constructor <;> simp, rfl, rfl, rfl⟩

/-! ## The trace -/

/-- A host action with the reset input released appends nothing, but that it may let the block run; an assertion of
the reset input empties the trace. -/
theorem hostAct_trace {a : HostAction} {s t : State} (hrel : s.resetInput = false) (h : hostAct a s = .next t) :
    blockStep s = .next t ∨ (t.resetInput = true ∧ t.trace = []) ∨ t.trace = s.trace := by
  obtain ⟨-, hb⟩ | ⟨-, rfl⟩ | ⟨-, ⟨op, mode, fill, rfl⟩ | rfl⟩ | hsame := hostAct_released hrel h
  · exact .inl hb
  · exact .inr (.inl ⟨rfl, rfl⟩)
  · exact .inr (.inr (by simp))
  · exact .inr (.inr (by simp))
  · exact .inr (.inr hsame.trace)

/-- The block's turn appends one event of a running op, or nothing (R40). -/
theorem blockStep_trace {s t : State} (h : blockStep s = .next t) :
    t.trace = s.trace ∨ (s.phase = .run ∧ ∃ e, t.trace = s.trace ++ [e]) := by
  obtain ⟨-, rfl⟩ | ⟨hrun, m, -, hm⟩ := blockStep_cases h
  · exact .inl rfl
  · obtain ⟨s', e, core, -, ⟨-, rfl⟩ | ⟨-, rfl | rfl⟩⟩ := runMicroStep_shape hm <;>
      exact .inr ⟨hrun, e, by simp [core.trace]⟩

/-- Settles O37: one turn is one host action or one event, and an asserted reset input leaves no trace. -/
theorem aStepAppendsAtMostOneEvent : Obligations.AStepAppendsAtMostOneEvent := by
  intro s t h
  obtain ⟨hr, hs⟩ | ⟨hrel, hs⟩ := step_turns s <;> rw [hs] at h
  · refine .inr (.inr ⟨.inl hr, ?_⟩)
    rw [← resetTurn_held hr h]; rfl
  · obtain ⟨-, hb⟩ | ⟨a, rest, -, ha⟩ := releasedTurn_cases h
    · exact (blockStep_trace hb).imp_right fun ⟨hrun, he⟩ => .inl ⟨hrel, hrun, he⟩
    · obtain hb | ⟨ht, htr⟩ | htr := hostAct_trace (s := { s with host := rest }) hrel ha
      · exact (blockStep_trace hb).imp_right fun ⟨hrun, he⟩ => .inl ⟨hrel, hrun, he⟩
      · exact .inr (.inr ⟨.inr ht, htr⟩)
      · exact .inl htr

/-! ## The invariant over host actions -/

/-- What leaves the sequencing alone keeps all of the invariant but memory's part. -/
theorem Inv.of_untouched {s t : State} (hi : Inv s) (hrel : s.resetInput = false) (h : OpUntouched s t)
    (hm : MemoryInv t) : Inv t := by
  obtain ⟨hinst, hphase, hsp, hstatus, hlatches, -, -, hpayload, hstream, htimer, hrst, hreset, -⟩ := h
  have hparams : t.params = s.params := by rw [State.params, hinst]
  have hsteps : t.steps = s.steps := State.steps_congr hinst (by rw [hlatches])
  refine ⟨?_, ?_, hm, ?_, fun h => ?_⟩
  · obtain ⟨h1, h2, h3, h4⟩ := hi.status
    constructor <;> rw [hstatus]
    case busy_iff_run => rwa [hphase]
    case fault_iff_fault => rwa [hphase]
    case not_init_and_asleep => exact h3
    case fault_code => rwa [hphase]
  · obtain ⟨h1, h2, h3, h4, h5, h6, h7, h8⟩ := hi.sequencer
    unfold StreamFits at h4
    constructor <;> rw [hphase]
    case at_rest => rwa [hsp, hpayload, hstream, htimer]
    case sp_in_list => rwa [hsp, hsteps]
    case payload_due => rwa [hpayload, hsp, hsteps]
    case stream_fits => unfold StreamFits; rwa [hsp, hsteps, hstream, hparams, hlatches]
    case timer_fits => rwa [htimer, hsp, hsteps]
    case init_running => rwa [hlatches, hstatus]
    case other_running => rwa [hlatches, hstatus]
    case draw_checked => rwa [hlatches, hparams]
  · unfold PinInv; rw [hrst, hphase, hlatches, hsp]; exact hi.pin
  · rw [hreset, hrel] at h; cases h

/-- A range of bytes written below BMP_MEM_BYTES keeps memory canonical and in range (R50). -/
theorem MemoryInv.memWrite {s : State} {addr : Word} {bytes : List Byte} (h : MemoryInv s)
    (hfit : addr.toNat + bytes.length ≤ s.params.bmpMemBytes) :
    MemoryInv { s with
      bitmap := s.bitmap.writeBytes addr.toNat bytes
      touched := insertAddrs s.touched addr.toNat bytes.length } where
  bitmap_wf := Memory.writeBytes_wf h.bitmap_wf _ _
  bitmap_in_range := fun c hc => by
    obtain ⟨-, hlt⟩ | hc := Memory.mem_writeBytes hc
    · exact lt_of_lt_of_le hlt hfit
    · exact h.bitmap_in_range c hc
  touched_rising := insertAddrs_rising h.touched_rising _ _
  touched_in_range := fun a ha => by
    obtain ⟨-, hlt⟩ | ha := mem_insertAddrs.mp ha
    · exact lt_of_lt_of_le hlt hfit
    · exact h.touched_in_range a ha

theorem touchedAtAccept_cases (p : Params) (l : List Nat) : touchedAtAccept p l = l ∨ touchedAtAccept p l = [] := by
  unfold touchedAtAccept
  split
  · exact .inr rfl
  · exact .inl rfl

theorem State.admission_touched (op : OpCode) (mode : LutMode) (fill : Byte) (s : State) :
    (s.admission op mode fill).touched = s.touched ∨ (s.admission op mode fill).touched = [] := by
  rcases s.admission_cases op mode fill with ⟨-, e⟩ | ⟨-, -, -, e⟩ | ⟨-, -, -, -, e⟩ | ⟨-, -, -, e⟩ <;>
    simp [e, touchedAtAccept_cases]

theorem State.onOpWrite_touched (op : OpCode) (mode : LutMode) (fill : Byte) (s : State) :
    (s.onOpWrite op mode fill).touched = s.touched ∨ (s.onOpWrite op mode fill).touched = [] := by
  by_cases hrun : s.phase = .run
  · rw [State.onOpWrite_of_run hrun]; exact .inl rfl
  · rw [State.onOpWrite_of_not_run hrun]; exact s.clearRej.admission_touched op mode fill

@[simp] theorem State.onIllegalWrite_touched (s : State) : s.onIllegalWrite.touched = s.touched := by
  unfold State.onIllegalWrite; split_ifs <;> simp

@[simp] theorem State.waitTurn_touched (s : State) : s.waitTurn.touched = s.touched := by
  unfold State.waitTurn; split <;> rfl

theorem blockStep_touched {s t : State} (h : blockStep s = .next t) : t.touched = s.touched := by
  obtain ⟨-, rfl⟩ | ⟨-, m, -, hm⟩ := blockStep_cases h
  · rfl
  · obtain ⟨s', e, core, -, ⟨-, rfl⟩ | ⟨-, rfl | rfl⟩⟩ := runMicroStep_shape hm <;> simp [core.touched]

/-- A host action keeps memory canonical and in range. -/
theorem MemoryInv.after_hostAct {a : HostAction} {s t : State} (hi : MemoryInv s) (h : hostAct a s = .next t) :
    MemoryInv t := by
  obtain ⟨-, hb⟩ | ⟨b, -, rfl⟩ | ⟨w, i, op, mode, fill, -, -, -, rfl⟩ | ⟨w, r, -, -, rfl⟩ | ⟨o, v, -, -, rfl⟩
    | ⟨v, rfl, -⟩ | ⟨-, rfl⟩ | ⟨addr, bytes, -, hfit, rfl⟩ := hostAct_cases h
  · exact hi.congr (blockStep_inst_bitmap hb).1 (blockStep_inst_bitmap hb).2 (.inl (blockStep_touched hb))
  · exact hi.congr (by simp) (by simp) (.inl (by simp))
  · exact hi.congr (by simp) (by simp) (State.onOpWrite_touched op mode fill s)
  · exact hi.congr (by simp) (by simp) (.inl (by simp))
  · exact hi.congr (by simp) (by simp) (.inl (by simp))
  · exact hi.congr rfl rfl (.inl rfl)
  · exact hi.congr (by simp) (by simp) (.inl (by simp))
  · exact hi.memWrite hfit

/-- An accepted op stands at the head of its list, in a good state (R29, R231, R232). -/
theorem Inv.accept {s : State} {op : OpCode} {mode : LutMode} {fill : Byte} (hi : Inv s) (hp : s.phase ≠ .run)
    (hrel : s.resetInput = false) (hf : s.status.fault = false) (hready : op = .init ∨ s.status.ready = true)
    (hargs : op = .draw → drawArgsValid s.params (s.latch op mode fill).latches = true) :
    Inv ((s.latch op mode fill).accept op) := by
  obtain ⟨-, -, hpay, hstr, htim, hrst⟩ := hi.atRest hp
  obtain ⟨hlen, hdue, hstart⟩ := stepList_head s.params op
  have hsteps : ((s.latch op mode fill).accept op).steps = stepList s.params op := rfl
  have hinit : op ≠ .init → s.status.init = true ∧ s.status.asleep = false := fun hop => by
    simpa [Status.ready] using hready.resolve_left hop
  refine ⟨?_, ?_, hi.memory.congr rfl rfl ?_, ?_, ?_⟩
  · constructor
    case busy_iff_run => simp
    case fault_iff_fault => simp [hf]
    case not_init_and_asleep => cases op <;> simp [Status.accept] <;> simp [hinit]
    case fault_code => simp
  · constructor
    case at_rest => simp
    case sp_in_list => exact fun _ => hlen
    case payload_due => intro _; rw [hsteps]; simp [hpay, hdue]
    case stream_fits => exact fun _ => streamFits_of_none (by rw [hsteps]; simpa using hstart) hstr
    case timer_fits => exact fun _ => .inl htim
    case init_running => rintro - hop; obtain rfl : op = .init := hop; exact ⟨rfl, rfl⟩
    case other_running =>
      intro _ hop
      have hop' : op ≠ .init := hop
      cases op with
      | init => exact absurd rfl hop'
      | setlut | clear | draw | refresh | sleep => exact hinit hop'
    case draw_checked => exact fun _ => hargs
  · exact touchedAtAccept_cases _ _
  · intro h; simp [hrst] at h
  · intro h; simp [hrel] at h

/-- Admission keeps the invariant (R231). -/
theorem Inv.admission {s : State} {op : OpCode} {mode : LutMode} {fill : Byte} (hi : Inv s) (hp : s.phase ≠ .run)
    (hrel : s.resetInput = false) : Inv (s.admission op mode fill) := by
  have hnofault : s.status.fault = false → s.phase = .fault → False := fun hf h => by
    rw [hi.status.fault_iff_fault.mpr h] at hf; cases hf
  obtain ⟨-, e⟩ | ⟨hf, -, -, e⟩ | ⟨hf, -, -, -, e⟩ | ⟨hf, hready, hargs, e⟩ := s.admission_cases op mode fill <;> rw [e]
  · exact hi.endWith hp hrel fun _ => .inr rfl
  · exact hi.endWith hp hrel fun h => (hnofault hf h).elim
  · exact .endOp (hi.status.congr rfl rfl) (hi.memory.congr rfl rfl (.inl rfl)) hrel (hi.atRest hp).rst
      fun h => (hnofault hf h).elim
  · exact hi.accept hp hrel hf hready hargs

/-- An `OP` write of an illegal word, with no op running, keeps the invariant (R261). -/
theorem Inv.onIllegalWrite {s : State} (hi : Inv s.clearRej) (hp : s.phase ≠ .run) (hrel : s.resetInput = false) :
    Inv s.onIllegalWrite := by
  unfold State.onIllegalWrite
  rw [if_neg hp]
  split
  next => exact hi.endWith hp hrel fun _ => .inr rfl
  next hf => exact hi.endWith hp hrel fun h => absurd (hi.status.fault_iff_fault.mpr h) hf

/-- A host action with the reset input released keeps the invariant. -/
theorem Inv.after_hostAct {a : HostAction} {s t : State} (hi : Inv s) (hrel : s.resetInput = false)
    (h : hostAct a s = .next t) : Inv t := by
  have hm := hi.memory.after_hostAct h
  obtain ⟨-, hb⟩ | ⟨-, rfl⟩ | ⟨hp, hw⟩ | hsame := hostAct_released hrel h
  · exact hi.after_blockStep hb
  · exact .of_held rfl hm
  · have hclear : Inv s.clearRej := hi.of_untouched hrel s.clearRej_untouched (hi.memory.congr rfl rfl (.inl rfl))
    obtain ⟨op, mode, fill, rfl⟩ | rfl := hw
    · exact hclear.admission hp hrel
    · exact hclear.onIllegalWrite hp hrel
  · exact hi.of_untouched hrel hsame hm

/-- The script is no part of the invariant. -/
theorem Inv.withHost {s : State} (hi : Inv s) (hrel : s.resetInput = false) (as : List HostAction) :
    Inv { s with host := as } :=
  hi.of_untouched hrel (by constructor <;> rfl) (hi.memory.congr rfl rfl (.inl rfl))

/-- Settles O58: an asserted reset input holds the block at its reset values; with it released, the step is a host
action or one event of the running op, each of which keeps every part. -/
theorem stepKeepsInvariant : Obligations.StepKeepsInvariant := by
  intro s t hi h
  obtain ⟨hr, hs⟩ | ⟨hrel, hs⟩ := step_turns s <;> rw [hs] at h
  · refine .of_held (resetTurn_held hr h) ?_
    obtain ⟨-, rfl⟩ | ⟨a, rest, u, -, ha, rfl⟩ := resetTurn_cases h
    · exact hi.memory.congr rfl rfl (.inl rfl)
    · have hheld : MemoryInv { s.blockReset with host := rest } := hi.memory.congr rfl rfl (.inl rfl)
      have hu : MemoryInv u := hheld.after_hostAct ha
      exact hu.congr (by simp) (by simp) (.inl (by simp))
  · obtain ⟨-, hb⟩ | ⟨a, rest, -, ha⟩ := releasedTurn_cases h
    · exact hi.after_blockStep hb
    · exact (hi.withHost hrel rest).after_hostAct hrel ha

/-- Settles O57: the reset state stands at its reset values, with nothing in memory. -/
theorem resetMeetsInvariant : Obligations.ResetMeetsInvariant :=
  .of_held rfl ⟨rfl, nofun, .nil, nofun⟩

end Sys2Proof.Machine
end

section
/-! PROOFS. The register file (R22-R28, R260), what a step does with a register access, and which step of the block a
placed instruction is (R21, R80, R86). -/

namespace Sys2Proof.Machine

/-! ## The register file -/

/-- A reserved offset is none of the registers' (R22, R28). -/
theorem ne_of_reserved {o c : BitVec 8} (ho : 0x14 ≤ o.toNat) (hc : c.toNat < 0x14) : o ≠ c := by
  rintro rfl; omega

/-- A read of a reserved offset (R28). -/
theorem State.regRead_reserved {s : State} {o : BitVec 8} (ho : 0x14 ≤ o.toNat) : s.regRead o = 0#32 := by
  simp [State.regRead, ne_of_reserved ho]

/-- A write to a reserved offset (R28). -/
theorem State.regWrite_reserved {s : State} {o : BitVec 8} {v : Word} (ho : 0x14 ≤ o.toNat) : s.regWrite o v = s := by
  simp [State.regWrite, ne_of_reserved ho]

/-- The three argument registers after a write, whatever the offset (R22, R24, R28). -/
theorem State.regWrite_eq (o : BitVec 8) (v : Word) (s : State) :
    s.regWrite o v = { s with
      origin := if o = 0x08#8 then v else s.origin
      bmpsize := if o = 0x0C#8 then v else s.bmpsize
      bmpbase := if o = 0x10#8 then v else s.bmpbase } := by
  by_cases horigin : o = 0x08#8
  · subst horigin; rfl
  by_cases hsize : o = 0x0C#8
  · subst hsize; rfl
  by_cases hbase : o = 0x10#8
  · subst hbase; rfl
  simp [State.regWrite, horigin, hsize, hbase]

/-- The reserved bits of STATUS (R24, R28). -/
theorem statusWord_reserved (t : Status) :
    (statusWord t).extractLsb' 6 2 = 0#2 ∧ (statusWord t).extractLsb' 12 20 = 0#20 := by
  constructor <;> ext i hi <;> interval_cases i <;> simp [statusWord]

/-- Settles O15: a reserved offset is no register's, and the reserved bits lie outside every field of STATUS. -/
theorem reservedOffsetsAndBits : Obligations.ReservedOffsetsAndBits :=
  ⟨fun _ _ _ ho => ⟨State.regRead_reserved ho, State.regWrite_reserved ho⟩, statusWord_reserved,
    fun _ _ => ⟨rfl, rfl, rfl⟩⟩

theorem modeFlag_getLsbD (m : LutMode) : (modeFlag m).getLsbD 0 = decide (m = .partialUpdate) := by
  cases m <;> rfl

/-- Settles O16, field by field; the four bits of ERR one by one. -/
theorem statusWordFields : Obligations.StatusWordFields := by
  refine ⟨fun t => ⟨?_, ?_, ?_, ?_, ?_, ?_, ?_⟩, rfl, rfl, rfl, rfl, rfl, rfl⟩
  · simp [statusWord]
  · simp [statusWord]
  · simp [statusWord]
  · simp [statusWord]
  · simp [statusWord, ← modeFlag_getLsbD]
  · simp [statusWord]
  · ext i hi
    interval_cases i <;> simp [statusWord]

/-! ## A step, by the host's next action -/

/-- With the reset input released, a step is the host's next action. -/
theorem step_of_action {s : State} {a : HostAction} {rest : List HostAction} (hr : s.resetInput = false)
    (hh : s.host = a :: rest) : step s = hostAct a { s with host := rest } := by
  rw [step_of_released hr]; simp only [releasedTurn, hh]

/-- With the reset input released and no action left, a step is the block's turn. -/
theorem step_of_quiet {s : State} (hr : s.resetInput = false) (hh : s.host = []) : step s = blockStep s := by
  rw [step_of_released hr]; simp only [releasedTurn, hh]

/-- An aligned 32-bit access is inside the interface (R56). -/
theorem hostAccessOk_aligned {o : BitVec 8} (ho : o.toNat % 4 = 0) : hostAccessOk o 32 = true := by
  simp [hostAccessOk, ho]

/-- An `OP` write (R230). -/
theorem hostAct_wregOp (w : Word) (s : State) : hostAct (wregOp w) s = opWrite w s := rfl

theorem opWrite_of_decodes {w : Word} {i : Instr} (h : decodeHost w = .ok i) (s : State) :
    opWrite w s = exec i s := by simp only [opWrite, h]

/-- Settles O17: the word is `State.regRead` of the offset. -/
theorem registerReadHasNoSideEffect : Obligations.RegisterReadHasNoSideEffect := by
  intro s o rest hr ho hh
  refine ⟨s.regRead o, ?answers, ?op, ?status, ?origin, ?bmpsize, ?bmpbase, State.regRead_reserved⟩
  case answers =>
    rw [step_of_action hr hh]
    exact if_pos (hostAccessOk_aligned ho)
  all_goals rintro rfl; rfl

/-- Settles O18 by `State.regWrite_eq`. -/
theorem registerWriteSetsItsRegister : Obligations.RegisterWriteSetsItsRegister := by
  intro s o v rest hr ho hop hh
  rw [step_of_action hr hh, hostAct, hostWrite, if_pos (hostAccessOk_aligned ho), if_neg hop, State.regWrite_eq]

/-! ## The block's next step -/

/-- In RUN the block performs the step `sp` names (R21). -/
theorem blockStep_of_step {s : State} {m : MicroStep} (hrun : s.phase = .run) (hm : s.steps[s.sp]? = some m) :
    blockStep s = runMicroStep m s := by
  rw [blockStep, if_pos hrun, hm]

/-- Settles O7: on both of the block's turns it performs the step `sp` names. -/
theorem stepRunsBusCommand : Obligations.StepRunsBusCommand := by
  intro s c hr hrun hm
  refine ⟨fun hh => ?_, fun rest hh => ?_⟩
  · rw [step_of_quiet hr hh]
    exact blockStep_of_step hrun hm
  · rw [step_of_action hr hh]
    exact blockStep_of_step (s := { s with host := rest }) hrun hm

/-- Every command stands in the step list of its home op (R86). -/
theorem bus_mem_homeOp (p : Params) (c : CmdName) : .bus c ∈ stepList p (homeOp c) := by
  cases c <;>
    simp [homeOp, stepList, streamPreambleSteps, setMemoryWindowSteps, setAddressPointerSteps, transaction]

/-- The placed sequencer stands at the command's step. -/
theorem State.atBusCommand_step (c : CmdName) (s : State) :
    (s.atBusCommand c).steps[(s.atBusCommand c).sp]? = some (.bus c) := by
  have hlt := List.findIdx_lt_length_of_exists (xs := stepList s.params (homeOp c)) (p := fun m => m == .bus c)
    ⟨_, bus_mem_homeOp s.params c, beq_self_eq_true _⟩
  have hfound := List.findIdx_getElem (w := hlt)
  exact List.getElem?_eq_some_iff.mpr ⟨hlt, eq_of_beq hfound⟩

/-- Settles O8: the word is the host's next action, or the command the sequencer's next step. -/
theorem placedInstructionRuns : Obligations.PlacedInstructionRuns := by
  refine ⟨fun s w i hi => ?_, fun s w i hcmd hi => ?_⟩
  · have hdec : decodeHost (BitVec.ofNat 32 w) = .ok i := by
      simp only [decodeTableWord, Option.ite_none_right_eq_some] at hi
      cases h : decodeHost (BitVec.ofNat 32 w) <;> simp_all [Except.toOption]
    rw [step_of_action (s := s.withFetchWord 32 w) rfl rfl, hostAct_wregOp, opWrite_of_decodes hdec]
    rfl
  · obtain ⟨c, hc, rfl⟩ : ∃ c, cmdOfCode Config.defaultCmd (BitVec.ofNat 8 w) = some c ∧ i = c.toInstr := by
      simp only [decodeTableWord, Option.ite_none_right_eq_some, decodeBus] at hi
      cases h : cmdOfCode Config.defaultCmd (BitVec.ofNat 8 w) <;> simp_all [Except.toOption]
    have hplaced : s.withFetchWord 8 w = s.atBusCommand c := by
      rw [State.withFetchWord, if_pos rfl, hcmd, hc]
    refine ⟨c, rfl, ?_⟩
    rw [hplaced, step_of_action (a := .letBlockRun) (rest := s.host) rfl rfl]
    exact blockStep_of_step (s := { s.atBusCommand c with host := s.host }) rfl (s.atBusCommand_step c)

end Sys2Proof.Machine
end

section
/-! PROOFS. Block reset (R290, R291) and the block after it (R42, R43). -/

namespace Sys2Proof.Machine

/-! ## The reset input and FAULT over an action -/

@[simp] theorem State.admission_resetInput (op : OpCode) (mode : LutMode) (fill : Byte) (s : State) :
    (s.admission op mode fill).resetInput = s.resetInput := by
  rcases s.admission_cases op mode fill with ⟨-, e⟩ | ⟨-, -, -, e⟩ | ⟨-, -, -, -, e⟩ | ⟨-, -, -, e⟩ <;> simp [e]
@[simp] theorem State.admission_fault (op : OpCode) (mode : LutMode) (fill : Byte) (s : State) :
    (s.admission op mode fill).status.fault = s.status.fault := by
  rcases s.admission_cases op mode fill with ⟨-, e⟩ | ⟨-, -, -, e⟩ | ⟨-, -, -, -, e⟩ | ⟨-, -, -, e⟩ <;> simp [e]

@[simp] theorem State.onOpWrite_resetInput (op : OpCode) (mode : LutMode) (fill : Byte) (s : State) :
    (s.onOpWrite op mode fill).resetInput = s.resetInput := by unfold State.onOpWrite; split <;> simp
@[simp] theorem State.onIllegalWrite_resetInput (s : State) : s.onIllegalWrite.resetInput = s.resetInput := by
  unfold State.onIllegalWrite; split_ifs <;> simp
@[simp] theorem State.onIllegalWrite_fault (s : State) : s.onIllegalWrite.status.fault = s.status.fault := by
  unfold State.onIllegalWrite; split_ifs <;> simp
@[simp] theorem State.waitTurn_resetInput (s : State) : s.waitTurn.resetInput = s.resetInput := by
  unfold State.waitTurn; split <;> rfl
@[simp] theorem State.advance_fault (s : State) : s.advance.status.fault = s.status.fault := by
  unfold State.advance; split <;> simp

/-- The block's turn does not drive the reset input, and no event of it clears FAULT (R265). -/
theorem blockStep_resetInput_fault {s t : State} (h : blockStep s = .next t) :
    t.resetInput = s.resetInput ∧ (s.status.fault = true → t.status.fault = true) := by
  obtain ⟨-, rfl⟩ | ⟨-, m, -, hm⟩ := blockStep_cases h
  · exact ⟨rfl, id⟩
  · obtain ⟨s', e, core, -, ⟨-, rfl⟩ | ⟨-, rfl | rfl⟩⟩ := runMicroStep_shape hm <;>
      simp [core.resetInput, core.status]

/-- Only the host's own drive of the reset input changes its level. -/
theorem hostAct_resetInput {a : HostAction} {s t : State} (h : hostAct a s = .next t) :
    (∃ b, a = .resetInput b ∧ t.resetInput = b) ∨ ((∀ b, a ≠ .resetInput b) ∧ t.resetInput = s.resetInput) := by
  obtain ⟨rfl, hb⟩ | ⟨b, rfl, rfl⟩ | ⟨w, i, op, mode, fill, rfl, -, -, rfl⟩ | ⟨w, r, rfl, -, rfl⟩ | ⟨o, v, rfl, -, rfl⟩
    | ⟨v, rfl, ⟨o, rfl, -⟩ | ⟨addr, rfl, -⟩⟩ | ⟨rfl, rfl⟩ | ⟨addr, bytes, rfl, -, rfl⟩ := hostAct_cases h
  case inr.inl => exact .inl ⟨b, rfl, by simp⟩
  case inl => exact .inr ⟨nofun, (blockStep_resetInput_fault hb).1⟩
  all_goals exact .inr ⟨nofun, by simp⟩

/-- With the reset input released, only its assertion clears FAULT (R265, R290). -/
theorem hostAct_fault {a : HostAction} {s t : State} (hrel : s.resetInput = false) (h : hostAct a s = .next t)
    (hf : s.status.fault = true) : t.status.fault = true ∨ t.resetInput = true := by
  obtain ⟨-, hb⟩ | ⟨-, rfl⟩ | ⟨-, ⟨op, mode, fill, rfl⟩ | rfl⟩ | hsame := hostAct_released hrel h
  · exact .inl ((blockStep_resetInput_fault hb).2 hf)
  · exact .inr rfl
  · exact .inl (by simpa using hf)
  · exact .inl (by simpa using hf)
  · exact .inl (by rw [hsame.status]; exact hf)

/-! ## Block reset -/

/-- A block held at its reset values has those of R42. -/
theorem AtReset.of_held {t : State} (h : t.blockReset = t) : AtReset t := by
  rw [← h]; constructor <;> rfl

theorem statusWord_reset : statusWord Status.reset = 0#32 := by decide

/-- Every register reads 0 at its reset value (R42). -/
theorem State.regRead_of_held {s : State} (h : s.blockReset = s) (o : BitVec 8) : s.regRead o = 0#32 := by
  rw [← h]
  unfold State.regRead
  split_ifs
  · exact statusWord_reset
  all_goals rfl

/-- A register read that is answered gives the host the register's word. -/
theorem hostAct_read {o : BitVec 8} {s t : State} (h : hostAct (.read o 32) s = .next t) :
    t = { s with hostData := s.hostData ++ [s.regRead o] } := by
  simp only [hostAct, hostRead] at h
  split at h
  next => exact (Host.Outcome.next.inj h).symm
  next => cases h

/-- An assertion of the reset input, from either level (R290). -/
theorem step_of_assertion {s : State} {rest : List HostAction} (hh : s.host = .resetInput true :: rest) :
    ∃ t, step s = .next t ∧ t.resetInput = true ∧ AtReset t ∧ t.inst = s.inst := by
  obtain ⟨-, hs⟩ | ⟨hrel, -⟩ := step_turns s
  · refine ⟨_, by rw [hs, resetTurn, hh]; rfl, by simp, .of_held rfl, by simp⟩
  · exact ⟨_, step_of_action hrel hh, rfl, .of_held rfl, rfl⟩

/-- With the reset input asserted, only its release ends it. -/
theorem resetTurn_releases {s t : State} (hr : s.resetInput = true) (h : resetTurn s = .next t) :
    t.resetInput = false ↔ ∃ rest, s.host = .resetInput false :: rest := by
  obtain ⟨hh, rfl⟩ | ⟨a, rest, u, hh, ha, rfl⟩ := resetTurn_cases h
  · simp [hh, hr]
  · rw [hh, State.holdReset_resetInput]
    obtain ⟨b, rfl, hb⟩ | ⟨hne, hu⟩ := hostAct_resetInput ha
    · simp [hb]
    · simp [hu, hr, hne]

/-- With the reset input asserted, a register read gives the host 0 (R42, log entry 12). -/
theorem resetTurn_read {s t : State} {o : BitVec 8} {rest : List HostAction} (h : resetTurn s = .next t)
    (hh : s.host = .read o 32 :: rest) : t.hostData = s.hostData ++ [0#32] := by
  obtain ⟨hnil, -⟩ | ⟨a, rest', u, hh', ha, rfl⟩ := resetTurn_cases h
  · rw [hh] at hnil; cases hnil
  · obtain ⟨rfl, rfl⟩ := List.cons.inj (hh.symm.trans hh')
    rw [State.holdReset_hostData, hostAct_read ha]
    exact congrArg (fun v => s.hostData ++ [v]) (State.regRead_of_held (s := { s.blockReset with host := rest }) rfl o)

/-- Settles O55: an assertion resets, an asserted input holds, and with it released no step but an assertion clears
FAULT. -/
theorem blockResetRestoresResetValues : Obligations.BlockResetRestoresResetValues := by
  refine ⟨fun s rest hh => step_of_assertion hh, fun s t hr h => ?_, fun s t h hf hf' => ?_⟩
  · have hinst := (step_inst_bitmap h).1
    rw [show step s = resetTurn s from if_pos hr] at h
    exact ⟨.of_held (resetTurn_held hr h), hinst, resetTurn_releases hr h, fun o rest hh => resetTurn_read h hh⟩
  · obtain ⟨hr, -⟩ | ⟨hrel, hs⟩ := step_turns s
    · exact .inl hr
    · rw [hs] at h
      have hkept : t.status.fault = true ∨ t.resetInput = true := by
        obtain ⟨-, hb⟩ | ⟨a, rest, -, ha⟩ := releasedTurn_cases h
        · exact .inl ((blockStep_resetInput_fault hb).2 hf)
        · exact hostAct_fault (s := { s with host := rest }) hrel ha hf
      exact .inr (hkept.resolve_left (by simp [hf']))

/-! ## The first op after reset -/

/-- The words of INIT (R80, R81). -/
theorem decodeHost_init {w : Word} {mode : LutMode} (h : decodeHost w = .ok (.init mode)) :
    w = 0x00000001#32 ∨ w = 0x00000011#32 := by
  obtain ⟨⟨hhigh, hres⟩, hopc, hfill⟩ :
      (highField w = 0#16 ∧ resField w = 0#3) ∧ opcField w = 0x1#4 ∧ fillField w = 0#8 := by
    unfold decodeHost decodePlain at h
    split_ifs at h with hzero hopc hfill
    case neg => exact ⟨by simpa using hzero, hopc, by simpa using hfill⟩
    all_goals cases h
  have hhigh := congrArg BitVec.toNat hhigh
  have hres := congrArg BitVec.toNat hres
  have hopc := congrArg BitVec.toNat hopc
  have hfill := congrArg BitVec.toNat hfill
  simp only [highField, resField, opcField, fillField, BitVec.extractLsb'_toNat, BitVec.toNat_ofNat]
    at hhigh hres hopc hfill
  have : w.toNat = 1 ∨ w.toNat = 17 := by omega
  exact this.imp BitVec.eq_of_toNat_eq BitVec.eq_of_toNat_eq

/-- The one host operation that is an INIT. -/
theorem hostOpOf_init {i : Instr} {mode : LutMode} {fill : Byte} (h : hostOpOf i = some (.init, mode, fill)) :
    i = .init mode := by
  cases i <;> simp [hostOpOf] at h
  exact congrArg Instr.init h.1

/-- What an `OP` write does right after reset: INIT is accepted, and any other word ends with a code (R42, R231). -/
theorem opWrite_reset (w : Word) :
    (∃ mode t, decodeHost w = .ok (.init mode) ∧ opWrite w State.reset = .next t ∧ t.phase = .run ∧ t.trace = [])
    ∨ ((∀ mode, decodeHost w ≠ .ok (.init mode))
      ∧ ∃ t, opWrite w State.reset = .next t ∧ t.phase = .idle ∧ t.status.err ≠ .ok ∧ t.trace = []) := by
  cases hd : decodeHost w with
  | error r => exact .inr ⟨nofun, State.reset.onIllegalWrite, by rw [opWrite, hd], rfl, by decide, rfl⟩
  | ok i =>
    obtain ⟨op, mode, fill, ho⟩ := decodeHost_hostOp hd
    rw [opWrite_of_decodes hd, exec_of_hostOp ho]
    by_cases hop : op = .init
    · subst hop
      obtain rfl := hostOpOf_init ho
      exact .inl ⟨mode, _, rfl, rfl, rfl, rfl⟩
    · refine .inr ⟨fun m hm => ?_, _, rfl, ?_⟩
      · obtain rfl := Except.ok.inj hm
        cases ho
        exact hop rfl
      · rw [State.onOpWrite_of_not_run (by decide), State.admission, if_neg (by decide), if_pos ⟨hop, rfl⟩]
        exact ⟨rfl, by decide, rfl⟩

/-- Settles O56 by `opWrite_reset` and the two words of INIT. -/
theorem firstOpAfterResetMustBeInit : Obligations.FirstOpAfterResetMustBeInit := by
  refine ⟨rfl, rfl, rfl, statusWord_reset, fun w => ?_⟩
  rw [show step { State.reset with host := [wregOp w] } = opWrite w State.reset from rfl]
  obtain ⟨mode, t, hd, ht, hrun, htr⟩ | ⟨hd, t, ht, hidle, herr, htr⟩ := opWrite_reset w
  · refine ⟨t, ht, htr, fun _ => hrun, fun h1 h2 => ?_⟩
    exact absurd (decodeHost_init hd) (by simp [h1, h2])
  · refine ⟨t, ht, htr, ?_, fun _ _ => ⟨hidle, herr⟩⟩
    rintro (rfl | rfl)
    · exact absurd rfl (hd .fullUpdate)
    · exact absurd rfl (hd .partialUpdate)

end Sys2Proof.Machine
end

section
/-! PROOFS. Progress: in a good state the block's turn always answers (R21, R52), a host action inside the interface is
always answered (R50, R56), and the host's script stays inside it. -/

namespace Sys2Proof.Machine

/-! ## The block's turn answers -/

/-- Only DRAW packs bytes (R190). -/
theorem op_eq_draw_of_packByte {p : Params} {op : OpCode} (h : .packByte ∈ stepList p op) : op = .draw := by
  cases op with
  | draw => rfl
  | init | setlut | clear | refresh | sleep =>
    cases hmode : p.busyWaitMode <;>
      simp [stepList, physicalResetSteps, streamPreambleSteps, setMemoryWindowSteps, setAddressPointerSteps,
        waitIdleSteps, hmode, transaction] at h

/-- `DrawArgsValid`, clause by clause (R167). -/
theorem drawArgsValid_iff {p : Params} {l : Latches} : drawArgsValid p l = true ↔
    1 ≤ l.w.toNat ∧ 1 ≤ l.h.toNat ∧ l.x.toNat < p.panelWidth ∧ l.y.toNat < p.panelHeight
      ∧ l.base.toNat + l.w.toNat * l.h.toNat ≤ p.bmpMemBytes := by
  simp [drawArgsValid, and_assoc]

/-- A window has no more rows than its image (R166). -/
theorem drawRect_nr_le {p : Params} {l : Latches} (hv : drawArgsValid p l = true) :
    (drawRect p l).nr ≤ l.h.toNat := by
  obtain ⟨-, hh, -, -, -⟩ := drawArgsValid_iff.mp hv
  simp only [Window.nr, drawRect]
  omega

/-- A pixel of a valid image lies in bitmap memory (R51, R167). -/
theorem pixAddr_lt {p : Params} {l : Latches} {i j : Nat} (hv : drawArgsValid p l = true) (hi : i < l.w.toNat)
    (hj : j < l.h.toNat) : pixAddr l i j < p.bmpMemBytes := by
  obtain ⟨-, -, -, -, hmem⟩ := drawArgsValid_iff.mp hv
  have hrows : (j + 1) * l.w.toNat ≤ l.h.toNat * l.w.toNat := Nat.mul_le_mul_right _ hj
  rw [Nat.succ_mul, Nat.mul_comm l.h.toNat] at hrows
  unfold pixAddr
  omega

/-- PackByte of a row of the window reads only bitmap memory that exists (R52). -/
theorem State.packInMemory_of_valid {s : State} {r g : Nat} (hv : drawArgsValid s.params s.latches = true)
    (hr : r < (drawRect s.params s.latches).nr) : s.packInMemory r g = true := by
  simp only [State.packInMemory, List.all_eq_true, decide_eq_true_eq]
  exact fun b _ hw => pixAddr_lt hv hw (lt_of_lt_of_le hr (drawRect_nr_le hv))

section
variable {s : State} {m : MicroStep} (hi : Inv s) (hrun : s.phase = .run)
include hi hrun

theorem Inv.dataByteStep_answers (hm : s.steps[s.sp]? = some .dataByte) : ∃ t, dataByteStep s = .next t := by
  have hdue := hi.sequencer.payload_due hrun
  rw [State.dataDue_at hm, if_pos rfl] at hdue
  obtain ⟨b, bs, hp⟩ := List.exists_cons_of_length_eq_add_one hdue
  exact ⟨_, by rw [dataByteStep, hp]⟩

theorem Inv.fillByteStep_answers (hm : s.steps[s.sp]? = some .fillByte) : ∃ t, fillByteStep s = .next t := by
  obtain ⟨n, hs, -⟩ : ∃ n, s.stream = some (.fill (n + 1)) ∧ n < frameBytes s.params := by
    simpa [StreamFits, hm] using hi.sequencer.stream_fits hrun
  exact ⟨_, by rw [fillByteStep, hs]⟩

theorem Inv.packByteStep_answers (hm : s.steps[s.sp]? = some .packByte) : ∃ t, packByteStep s = .next t := by
  obtain ⟨r, g, hs, hr, -⟩ : ∃ r g, s.stream = some (.pack r g) ∧ r < (drawRect s.params s.latches).nr
      ∧ g < (drawRect s.params s.latches).nb := by
    simpa [StreamFits, hm] using hi.sequencer.stream_fits hrun
  have hop := op_eq_draw_of_packByte (List.mem_of_getElem? hm)
  have hmem := State.packInMemory_of_valid (g := g) (hi.sequencer.draw_checked hrun hop) hr
  exact ⟨_, by simp only [packByteStep, hs]; exact if_pos hmem⟩

/-- In a good state no step of a running op is lost (R21, R33, R36, R52). -/
theorem Inv.runMicroStep_answers (hm : s.steps[s.sp]? = some m) : ∃ t, runMicroStep m s = .next t := by
  cases m with
  | setPin lvl | delay ms | poll => exact ⟨_, rfl⟩
  | bus c => exact ⟨_, exec_toInstr c _⟩
  | dataByte => exact hi.dataByteStep_answers hrun hm
  | fillByte => exact hi.fillByteStep_answers hrun hm
  | packByte => exact hi.packByteStep_answers hrun hm

end

/-- In a good state the block's turn answers. -/
theorem Inv.blockStep_answers {s : State} (hi : Inv s) : ∃ t, blockStep s = .next t := by
  by_cases hrun : s.phase = .run
  · have hm : s.steps[s.sp]? = some (s.steps[s.sp]'(hi.sequencer.sp_in_list hrun)) := List.getElem?_eq_getElem _
    rw [blockStep_of_step hrun hm]
    exact hi.runMicroStep_answers hrun hm
  · exact ⟨s, if_neg hrun⟩

/-! ## The host's actions are answered -/

/-- Whatever is written to `OP`, the block answers (R230, R261). -/
theorem opWrite_answers (w : Word) (s : State) : ∃ t, opWrite w s = .next t := by
  cases hd : decodeHost w with
  | error r => exact ⟨s.onIllegalWrite, by rw [opWrite, hd]⟩
  | ok i =>
    obtain ⟨op, mode, fill, ho⟩ := decodeHost_hostOp hd
    exact ⟨_, (opWrite_of_decodes hd s).trans (exec_of_hostOp ho s)⟩

/-- In a good state an action inside the interface is answered (R50, R56). -/
theorem Inv.hostAct_answers {a : HostAction} {s : State} (hi : Inv s) (ha : a.allowed s.params = true) :
    ∃ t, hostAct a s = .next t := by
  cases a with
  | write o bits v =>
    have hok : hostAccessOk o bits = true := ha
    rw [hostAct, hostWrite, if_pos hok]
    split
    · exact opWrite_answers v s
    · exact ⟨_, rfl⟩
  | read o bits => exact ⟨_, if_pos ha⟩
  | memWrite addr bytes => exact ⟨_, if_pos (of_decide_eq_true ha)⟩
  | memRead addr => exact ⟨_, if_pos (of_decide_eq_true ha)⟩
  | wait | resetInput => exact ⟨_, rfl⟩
  | letBlockRun => exact hi.blockStep_answers

/-! ## What a step does to the host's script -/

@[simp] theorem State.admission_host (op : OpCode) (mode : LutMode) (fill : Byte) (s : State) :
    (s.admission op mode fill).host = s.host := by
  rcases s.admission_cases op mode fill with ⟨-, e⟩ | ⟨-, -, -, e⟩ | ⟨-, -, -, -, e⟩ | ⟨-, -, -, e⟩ <;> simp [e]
@[simp] theorem State.onOpWrite_host (op : OpCode) (mode : LutMode) (fill : Byte) (s : State) :
    (s.onOpWrite op mode fill).host = s.host := by unfold State.onOpWrite; split <;> simp
@[simp] theorem State.onIllegalWrite_host (s : State) : s.onIllegalWrite.host = s.host := by
  unfold State.onIllegalWrite; split_ifs <;> simp

/-- The block does not touch the host's script. -/
theorem blockStep_host {s t : State} (h : blockStep s = .next t) : t.host = s.host := by
  obtain ⟨-, rfl⟩ | ⟨-, m, -, hm⟩ := blockStep_cases h
  · rfl
  · obtain ⟨s', e, core, -, ⟨-, rfl⟩ | ⟨-, rfl | rfl⟩⟩ := runMicroStep_shape hm <;> simp [core.host]

/-- An action puts nothing into the script but a WAIT's next two turns (R101). -/
theorem hostAct_host {a : HostAction} {s t : State} (h : hostAct a s = .next t) :
    t.host = s.host ∨ t.host = .letBlockRun :: .wait :: s.host := by
  obtain ⟨-, hb⟩ | ⟨b, -, rfl⟩ | ⟨w, i, op, mode, fill, -, -, -, rfl⟩ | ⟨w, r, -, -, rfl⟩ | ⟨o, v, -, -, rfl⟩
    | ⟨v, rfl, -⟩ | ⟨-, rfl⟩ | ⟨addr, bytes, -, -, rfl⟩ := hostAct_cases h
  · exact .inl (blockStep_host hb)
  · exact .inl (by simp)
  · exact .inl (by simp)
  · exact .inl (by simp)
  · exact .inl (by simp)
  · exact .inl rfl
  · unfold State.waitTurn
    split
    · exact .inr rfl
    · exact .inl rfl
  · exact .inl rfl

/-- What remains of the script after an action is inside the interface if what followed it was. -/
theorem HostOk.after_hostAct {a : HostAction} {s t : State} (hok : HostOk s) (h : hostAct a s = .next t) :
    HostOk t := by
  have hp : t.params = s.params := congrArg BlockInstance.params (hostAct_inst_bitmap h).1
  unfold HostOk at hok ⊢
  rw [hp]
  obtain hh | hh := hostAct_host h <;> rw [hh]
  · exact hok
  · exact List.forall_mem_cons.mpr ⟨rfl, List.forall_mem_cons.mpr ⟨rfl, hok⟩⟩

/-! ## A good state never stops -/

/-- A script inside the interface: its first action and the rest. -/
theorem HostOk.cons {s : State} {a : HostAction} {rest : List HostAction} (hok : HostOk s) (hh : s.host = a :: rest) :
    a.allowed s.params = true ∧ ∀ x ∈ rest, x.allowed s.params = true := by
  unfold HostOk at hok
  rw [hh] at hok
  exact List.forall_mem_cons.mp hok

/-- With the reset input asserted, the host acts on a block held at its reset values, which is a good one (R290). -/
theorem Inv.resetTurn_answers {s : State} (hi : Inv s) (hok : HostOk s) : ∃ t, resetTurn s = .next t ∧ HostOk t := by
  cases hh : s.host with
  | nil =>
    refine ⟨s.blockReset, by rw [resetTurn, hh], ?_⟩
    simp [HostOk, hh]
  | cons a rest =>
    obtain ⟨ha, hrest⟩ := hok.cons hh
    have hheld : Inv { s.blockReset with host := rest } := .of_held rfl (hi.memory.congr rfl rfl (.inl rfl))
    obtain ⟨u, hu⟩ := hheld.hostAct_answers ha
    have huok : HostOk u := .after_hostAct (s := { s.blockReset with host := rest }) hrest hu
    refine ⟨u.holdReset, by rw [resetTurn, hh]; exact congrArg heldInReset hu, ?_⟩
    simpa [HostOk, State.params] using huok

/-- With it released, the turn is the host's action or the block's. -/
theorem Inv.releasedTurn_answers {s : State} (hi : Inv s) (hrel : s.resetInput = false) (hok : HostOk s) :
    ∃ t, releasedTurn s = .next t ∧ HostOk t := by
  cases hh : s.host with
  | nil =>
    obtain ⟨t, ht⟩ := hi.blockStep_answers
    refine ⟨t, by rw [releasedTurn, hh]; exact ht, ?_⟩
    simp [HostOk, blockStep_host ht, hh]
  | cons a rest =>
    obtain ⟨ha, hrest⟩ := hok.cons hh
    obtain ⟨t, ht⟩ := (hi.withHost hrel rest).hostAct_answers ha
    exact ⟨t, by rw [releasedTurn, hh]; exact ht, .after_hostAct (s := { s with host := rest }) hrest ht⟩

/-- Settles O59, for either level of the reset input. -/
theorem goodStateNeverStops : Obligations.GoodStateNeverStops := by
  intro s hi hok
  obtain ⟨-, hs⟩ | ⟨hrel, hs⟩ := step_turns s <;> rw [hs]
  · exact hi.resetTurn_answers hok
  · exact hi.releasedTurn_answers hrel hok

end Sys2Proof.Machine
end

section
/-! PROOFS. What the host's port answers: refused accesses (R56), host reads of bitmap memory (R50) and WAIT (R101). -/

namespace Sys2Proof.Machine

/-- An access of another width, or at an offset that is no multiple of 4, is outside the interface (R56). -/
theorem hostAccessOk_false {o : BitVec 8} {bits : Nat} (h : ¬(bits = 32 ∧ o.toNat % 4 = 0)) :
    hostAccessOk o bits = false := by
  simpa [hostAccessOk] using h

/-- An action that is refused in every state stops the machine, at either level of the reset input. -/
theorem step_of_refused {s : State} {a : HostAction} {rest : List HostAction} {r : Refusal}
    (hh : s.host = a :: rest) (ha : ∀ u, hostAct a u = .refused r) : step s = .refused r := by
  obtain ⟨-, hs⟩ | ⟨hrel, -⟩ := step_turns s
  · rw [hs, resetTurn, hh]
    exact congrArg heldInReset (ha _)
  · rw [step_of_action hrel hh, ha]

/-- Settles O19: such an access is refused in every state. -/
theorem narrowOrMisalignedAccessIsRefused : Obligations.NarrowOrMisalignedAccessIsRefused := by
  intro s o bits v rest hbad
  have hno : ¬hostAccessOk o bits = true := by simp [hostAccessOk_false hbad]
  exact ⟨fun hh => step_of_refused hh fun _ => if_neg hno, fun hh => step_of_refused hh fun _ => if_neg hno⟩

/-- Settles O52: a memory read in range, and the two turns of a WAIT. -/
theorem hostMemReadAndWaitTurn : Obligations.HostMemReadAndWaitTurn := by
  refine ⟨fun s addr rest hr hh hfit => ?_, fun s rest hr hh => ⟨fun hb => ?_, fun hb => ?_⟩⟩
  · rw [step_of_action hr hh]
    exact if_pos hfit
  · rw [step_of_action hr hh]
    exact congrArg Host.Outcome.next (if_pos hb)
  · rw [step_of_action hr hh]
    exact congrArg Host.Outcome.next (if_neg (by simp [hb]))

end Sys2Proof.Machine
end

section
/-! PROOFS. What a DRAW reads: races with the host's writes (R60, R64), and the pixels its stream depends on (R114,
R116). -/

namespace Sys2Proof.Machine

/-! ## Races -/

/-- Where R231 accepts an op, `exec` answers the latched and accepted state. -/
theorem exec_of_accepts {s : State} {i : Instr} {op : OpCode} {mode : LutMode} {fill : Byte}
    (hi : hostOpOf i = some (op, mode, fill)) (hacc : AcceptsOp s op) :
    exec i s = .next ((s.clearRej.latch op mode fill).accept op) := by
  rw [exec_of_hostOp hi, State.onOpWrite_of_not_run hacc.not_running,
    State.admission_of_accepts (s := s.clearRej) hacc.no_fault hacc.ready hacc.args]

/-- A byte that the host has not written, and does not write before it has ended, waited for `BUSY` = 0, or let the op
perform all its events, reads as memory holds it. -/
theorem State.pixel_of_no_write {s : State} {r c : Nat} {before rest : List HostAction} (hh : s.host = before ++ rest)
    (htouched : pixAddr s.latches c r ∉ s.touched)
    (hw : ∀ addr bytes, .memWrite addr bytes ∈ before →
      pixAddr s.latches c r < addr.toNat ∨ addr.toNat + bytes.length ≤ pixAddr s.latches c r)
    (hend : rest = [] ∨ rest.head? = some .wait ∨ s.eventsAfterByte r (c / 8) ≤ before.count .letBlockRun) :
    s.pixel r c = s.bitmap.read (pixAddr s.latches c r) :=
  State.pixel_of_not_raced (by simp [State.raced, htouched, hh, racesAhead_of_no_write hw hend])

/-- An op whose script of responses has an `ok` for every byte left performs all its events. -/
theorem eventsAfter_of_oks {k : Nat} {more : List Resp} :
    ∀ {left d : Nat}, left ≤ k → eventsAfter left (List.replicate k .ok ++ more) d = left := by
  induction k with
  | zero => intro left d h; rw [Nat.le_zero.mp h]; rfl
  | succ k ih =>
    intro left d h
    cases left with
    | zero => rfl
    | succ n => simp [List.replicate_succ, eventsAfter, ih (Nat.le_of_succ_le_succ h)]

/-- Settles O22 from the laws of `racesAhead` and `eventsAfter`. -/
theorem bitmapReadsFollowTheRaceRule : Obligations.BitmapReadsFollowTheRaceRule := by
  refine ⟨?accepted, ?written, ?stillToWrite, ?writtenTooLate, ?failing, ?allOk⟩
  case accepted =>
    intro s t i op mode fill hi hacc h hord
    rw [exec_of_accepts hi hacc] at h
    obtain rfl := Host.Outcome.next.inj h
    have htouched : ((s.clearRej.latch op mode fill).accept op).touched = [] := by
      change touchedAtAccept s.params s.touched = []
      rw [touchedAtAccept, hord]
    refine ⟨htouched, fun r c hw => ?_⟩
    exact State.pixel_of_no_write (List.append_nil _).symm (htouched ▸ List.not_mem_nil) hw (.inl rfl)
  case written => exact fun s r c hmem => State.pixel_of_raced (by simp [State.raced, hmem])
  case stillToWrite =>
    intro s r c before rest addr bytes hh hlo hhi hfit hbefore hcount
    have hrace := racesAhead_of_write (rest := rest) hfit hlo hhi hbefore hcount
    exact State.pixel_of_raced (by simp [State.raced, hh, hrace])
  case writtenTooLate =>
    exact fun s r c before rest hh htouched hw hend => State.pixel_of_no_write hh htouched hw (.inr hend)
  case failing =>
    intro s r g k more hscript
    rw [State.eventsAfterByte, hscript, eventsAfter_of_script]
  case allOk =>
    intro s r g k more hscript hk
    rw [State.eventsAfterByte, hscript, eventsAfter_of_oks hk]

/-! ## The pixels a stream depends on -/

/-- PackByte sees only the pixels of its group that lie in the image (R114). -/
theorem packBits_congr {width g n : Nat} {pix pix' : Nat → Byte}
    (h : ∀ b < n, 8 * g + b < width → pix (8 * g + b) = pix' (8 * g + b)) :
    packBits width pix g n = packBits width pix' g n := by
  induction n with
  | zero => rfl
  | succ n ih =>
    have hbits := ih fun b hb => h b (Nat.lt_succ_of_lt hb)
    by_cases hw : 8 * g + n < width
    · simp only [packBits, hbits, h n (Nat.lt_succ_self n) hw]
    · simp only [packBits, hbits, hw, false_and, if_false]

/-- A window has a byte in every row (R166). -/
theorem Window.nb_pos (w : Window) : 0 < w.nb := Nat.succ_pos _

/-- Settles O48: byte k packs pixels of row k / nb, and of columns below 8 nb, as k mod nb is below nb. -/
theorem packingReadsOnlyTheWindow : Obligations.PackingReadsOnlyTheWindow := by
  intro p l m m' hagree
  refine List.map_congr_left fun k hk => packBits_congr fun b hb hw => ?_
  have hrow : k / (drawRect p l).nb < (drawRect p l).nr := Nat.div_lt_of_lt_mul (List.mem_range.mp hk)
  have hcol : k % (drawRect p l).nb < (drawRect p l).nb := Nat.mod_lt k (Window.nb_pos _)
  exact hagree _ _ hrow hw (by omega)

end Sys2Proof.Machine
end

section
/-! PROOFS. Windows inside the panel (R166, R167, R170), and what a panel of the default RAM_MODEL (R70, log entry 15)
does with the events of a window, a pointer and a stream (R168). -/

namespace Sys2Proof.Machine

/-! ## The panel's size, and windows inside it -/

/-- The size of a panel (R8). -/
theorem panelSize (i : BlockInstance) : i.params.panelWidth % 8 = 0 ∧ 8 ≤ i.params.panelWidth
    ∧ i.params.panelWidth ≤ 2048 ∧ 1 ≤ i.params.panelHeight ∧ i.params.panelHeight ≤ 65536 := by
  have h := i.ok
  simp only [Params.wf, Params.widthOk, Params.heightOk, Bool.and_eq_true, beq_iff_eq, decide_eq_true_eq] at h
  omega

/-- A window that lies in the panel. -/
structure Window.InPanel (p : Params) (w : Window) : Prop where
  xs_le_xe : w.xs ≤ w.xe
  xe_lt : w.xe < p.panelWidth
  ys_le_ye : w.ys ≤ w.ye
  ye_lt : w.ye < p.panelHeight

/-- A DRAW that passes the check has its window in the panel (R166, R167). -/
theorem drawRect_inPanel {p : Params} {l : Latches} (hv : drawArgsValid p l = true) :
    (drawRect p l).InPanel p := by
  obtain ⟨hw, hh, hx, hy, -⟩ := drawArgsValid_iff.mp hv
  constructor <;> simp only [drawRect, alignDown8] <;> omega

/-- CLEAR's window is the panel (R170). -/
theorem fullWindow_inPanel (i : BlockInstance) : (fullWindow i.params).InPanel i.params := by
  obtain ⟨-, hw, -, hh, -⟩ := panelSize i
  constructor <;> simp only [fullWindow] <;> omega

theorem fullWindow_nb (i : BlockInstance) : (fullWindow i.params).nb = rowBytes i.params := by
  obtain ⟨hmod, hw, -, -, -⟩ := panelSize i
  simp only [Window.nb, fullWindow, byteColumn, rowBytes]
  omega

theorem fullWindow_nr (i : BlockInstance) : (fullWindow i.params).nr = i.params.panelHeight := by
  obtain ⟨-, -, -, hh, -⟩ := panelSize i
  simp only [Window.nr, fullWindow]
  omega

/-! ## Address bytes lose nothing -/

/-- A byte column of the panel goes over the bus in one byte (R161, R164). -/
theorem columnByte_toNat {i : BlockInstance} {x : Nat} (hx : x < i.params.panelWidth) :
    (lo8 (byteColumn x)).toNat = byteColumn x := by
  obtain ⟨-, -, hwidth, -, -⟩ := panelSize i
  simp only [lo8, byteColumn, BitVec.toNat_ofNat]
  omega

/-- A row of the panel goes over the bus low byte first (R53, R162, R165). -/
theorem leValue_row {i : BlockInstance} {y : Nat} (hy : y < i.params.panelHeight) : leValue (lo8 y) (hi8 y) = y := by
  obtain ⟨-, -, -, -, hheight⟩ := panelSize i
  simp only [leValue, lo8, hi8, BitVec.toNat_ofNat]
  omega

/-! ## The panel's commands -/

/-- The command codes a block is built with are distinct (R89, U4). -/
theorem cmd_distinct (i : BlockInstance) : i.params.cmd.distinct = true := by
  have h := i.ok
  simp only [Params.wf, Bool.and_eq_true] at h
  obtain ⟨⟨⟨-, hdistinct⟩, -⟩, -⟩ := h
  exact hdistinct

/-- In a table with distinct codes a command's code names it (R89, R94). -/
theorem cmdOfCode_code {t : CmdTable} (ht : t.distinct = true) (c : CmdName) : cmdOfCode t (t.code c) = some c := by
  have hmem : ∀ d : CmdName, d ∈ CmdName.all := by intro d; cases d <;> decide
  have hinj : ∀ d, t.code d = t.code c → d = c := fun d hd =>
    List.inj_on_of_nodup_map (of_decide_eq_true ht) (hmem d) (hmem c) hd
  obtain ⟨d, hd⟩ : ∃ d, cmdOfCode t (t.code c) = some d :=
    Option.isSome_iff_exists.mp (List.find?_isSome.mpr ⟨c, hmem c, beq_self_eq_true _⟩)
  have hcode : (t.code d == t.code c) = true := List.find?_some (p := fun d => t.code d == t.code c) hd
  rw [hd, hinj d (eq_of_beq hcode)]

@[simp] theorem RamModel.after_nil (m : RamModel) (p : Params) (q : Panel) : m.after p q [] = q := rfl

@[simp] theorem RamModel.after_cons (m : RamModel) (p : Params) (q : Panel) (e : Event) (es : List Event) :
    m.after p q (e :: es) = m.after p (m.onEvent p q e) es := rfl

@[simp] theorem RamModel.after_append (m : RamModel) (p : Params) (q : Panel) (es fs : List Event) :
    m.after p q (es ++ fs) = m.after p (m.after p q es) fs := List.foldl_append

section
variable {i : BlockInstance} (hpoll : i.params.busyWaitMode = .poll)
include hpoll

theorem onEvent_data (q : Panel) (v : Byte) :
    RamModel.default.onEvent i.params q (.data v .ok) = q.onData i.params v := by
  simp [RamModel.default, Panel.onEvent, hpoll]

/-- A command byte opens its command's transaction (R70, R86). -/
theorem onEvent_cmd (q : Panel) {c : CmdName} (hc : c ≠ .deepSleepMode) :
    RamModel.default.onEvent i.params q (.cmd (i.params.cmd.code c) .ok)
      = { q with command := some c, received := [], writing := c == .writeRam } := by
  have hcode := cmdOfCode_code (cmd_distinct i) c
  cases c
  case deepSleepMode => exact absurd rfl hc
  all_goals simp [RamModel.default, Panel.onEvent, hpoll, Panel.onCmd, hcode]

/-- WaitIdle leaves the panel alone. -/
theorem after_waitIdle (q : Panel) (k : Nat) : RamModel.default.after i.params q (waitIdleEvents i.params k) = q := by
  have hidle : ∀ e, e = .busy .low ∨ e = .busy .high ∨ e = .wait Config.pollIntervalMs →
      RamModel.default.onEvent i.params q e = q := by
    rintro e (rfl | rfl | rfl) <;> simp [RamModel.default, Panel.onEvent, hpoll]
  simp only [waitIdleEvents, hpoll, RamModel.after_append, RamModel.after_cons, RamModel.after_nil]
  induction k with
  | zero => exact hidle _ (.inl rfl)
  | succ k ih => simpa [List.replicate_succ, hidle] using ih

end

/-! ## A stream fills its window -/

/-- The panel row of byte `n` of a window's stream, rows outer (R71); past the window's last byte it starts again at
its first (R70). -/
def Window.rowAt (w : Window) (n : Nat) : Nat := w.ys + n / w.nb % w.nr

/-- The byte column of byte `n` of a window's stream, columns inner (R71). -/
def Window.columnAt (w : Window) (n : Nat) : Nat := byteColumn w.xs + n % w.nb

/-- The panel takes stream bytes, and byte `n` of window `w` is the next. -/
structure Panel.WritingAt (w : Window) (n : Nat) (q : Panel) : Prop where
  windowX : q.windowX = some (byteColumn w.xs, byteColumn w.xe)
  windowY : q.windowY = some (w.ys, w.ye)
  counterX : q.counterX = some (w.columnAt n)
  counterY : q.counterY = some (w.rowAt n)
  writing : q.writing = true

/-- Row and column of the next number, in rows of `b`: past the end of a row, or one further in it. -/
theorem div_mod_succ {b : Nat} (hb : 0 < b) (n : Nat) :
    (n % b + 1 = b ∧ (n + 1) / b = n / b + 1 ∧ (n + 1) % b = 0)
    ∨ (n % b + 1 < b ∧ (n + 1) / b = n / b ∧ (n + 1) % b = n % b + 1) := by
  have hn := Nat.mod_add_div n b
  have hlt := Nat.mod_lt n hb
  by_cases hlast : n % b + 1 = b
  · exact .inl ⟨hlast, (Nat.div_mod_unique hb).mpr ⟨by rw [Nat.mul_succ]; omega, hb⟩⟩
  · exact .inr ⟨by omega, (Nat.div_mod_unique hb).mpr ⟨by omega, by omega⟩⟩

/-- A window has at least one row (R166). -/
theorem Window.nr_pos (w : Window) : 0 < w.nr := Nat.succ_pos _

/-- Two bytes of one window's stream do not share a place. -/
theorem Window.at_inj {w : Window} {j n : Nat} (hj : j < w.nb * w.nr) (hn : n < w.nb * w.nr)
    (hrow : w.rowAt j = w.rowAt n) (hcol : w.columnAt j = w.columnAt n) : j = n := by
  simp only [Window.rowAt, Window.columnAt, Nat.mod_eq_of_lt (Nat.div_lt_of_lt_mul hj),
    Nat.mod_eq_of_lt (Nat.div_lt_of_lt_mul hn), Nat.add_left_cancel_iff] at hrow hcol
  rw [← Nat.mod_add_div j w.nb, hcol, hrow, Nat.mod_add_div]

section
variable {i : BlockInstance} {w : Window} (hw : w.InPanel i.params)
include hw

/-- The edges of a window, in rows and byte columns (R166). -/
theorem Window.InPanel.edges : w.ye + 1 = w.ys + w.nr ∧ byteColumn w.xe + 1 = byteColumn w.xs + w.nb := by
  have hy := hw.ys_le_ye
  have hx : byteColumn w.xs ≤ byteColumn w.xe := Nat.div_le_div_right hw.xs_le_xe
  simp only [Window.nr, Window.nb]
  omega

/-- The last byte column of a window is one of the panel's. -/
theorem Window.InPanel.byteColumn_xe_lt : byteColumn w.xe < rowBytes i.params := by
  obtain ⟨hmod, -, -, -, -⟩ := panelSize i
  have hxe := hw.xe_lt
  simp only [byteColumn, rowBytes]
  omega

/-- Every byte of the stream has a place in the window. -/
theorem Window.InPanel.at_mem (n : Nat) : w.ys ≤ w.rowAt n ∧ w.rowAt n ≤ w.ye
    ∧ byteColumn w.xs ≤ w.columnAt n ∧ w.columnAt n ≤ byteColumn w.xe := by
  obtain ⟨hy, hx⟩ := hw.edges
  have hrow : n / w.nb % w.nr < w.nr := Nat.mod_lt _ w.nr_pos
  have hcol : n % w.nb < w.nb := Nat.mod_lt _ w.nb_pos
  simp only [Window.rowAt, Window.columnAt]
  omega

/-- The counters step from one byte's place to the next's, and from the last to the first (R70). -/
theorem Window.InPanel.counterAfter_at (n : Nat) :
    counterAfter (byteColumn w.xs, byteColumn w.xe) (w.ys, w.ye) (w.columnAt n) (w.rowAt n)
      = (w.columnAt (n + 1), w.rowAt (n + 1)) := by
  obtain ⟨hy, hx⟩ := hw.edges
  unfold counterAfter Window.rowAt Window.columnAt
  obtain ⟨hlast, hdiv, hmod⟩ | ⟨hlt, hdiv, hmod⟩ := div_mod_succ w.nb_pos n <;> rw [hdiv, hmod]
  · have hend : byteColumn w.xs + n % w.nb = byteColumn w.xe := by omega
    obtain ⟨hlastRow, -, hrow⟩ | ⟨hltRow, -, hrow⟩ := div_mod_succ w.nr_pos (n / w.nb) <;> rw [hrow]
    · rw [if_pos hend, if_pos (by simp only; omega)]; rfl
    · rw [if_pos hend, if_neg (by simp only; omega)]; rfl
  · have hend : byteColumn w.xs + n % w.nb ≠ byteColumn w.xe := by omega
    rw [if_neg hend]; rfl

/-- One stream byte: it is stored at its place, and the next byte's place is next (R70). -/
theorem Panel.WritingAt.onData {n : Nat} {q : Panel} (h : q.WritingAt w n) (v : Byte) :
    (q.onData i.params v).WritingAt w (n + 1)
    ∧ (q.onData i.params v).ram = (q.store (w.rowAt n) (w.columnAt n) v).ram := by
  obtain ⟨hwx, hwy, hcx, hcy, hwriting⟩ := h
  obtain ⟨-, hrow, -, hcol⟩ := hw.at_mem n
  have hin : w.columnAt n < rowBytes i.params ∧ w.rowAt n < i.params.panelHeight :=
    ⟨lt_of_le_of_lt hcol hw.byteColumn_xe_lt, lt_of_le_of_lt hrow hw.ye_lt⟩
  have hnext := hw.counterAfter_at n
  rw [Panel.onData, if_pos hwriting]
  simp only [Panel.write, hwx, hwy, hcx, hcy, if_pos hin, hnext, and_true]
  exact ⟨hwx, hwy, rfl, rfl, hwriting⟩

variable (hpoll : i.params.busyWaitMode = .poll)
include hpoll

/-- A stream changes no byte outside its window, however long it is. -/
theorem after_stream_outside {y x : Nat}
    (hout : ¬(w.ys ≤ y ∧ y ≤ w.ye ∧ byteColumn w.xs ≤ x ∧ x ≤ byteColumn w.xe)) {bs : List Byte} :
    ∀ {n : Nat} {q : Panel}, q.WritingAt w n →
      (RamModel.default.after i.params q (streamEvents bs)).ram y x = q.ram y x := by
  induction bs with
  | nil => exact fun _ => rfl
  | cons b bs ih =>
    intro n q h
    obtain ⟨hnext, hram⟩ := h.onData hw b
    have hne : ¬(y = w.rowAt n ∧ x = w.columnAt n) := by
      rintro ⟨rfl, rfl⟩; exact hout (hw.at_mem n)
    rw [streamEvents, List.map_cons, RamModel.after_cons, onEvent_data hpoll]
    exact (ih hnext).trans (by rw [hram]; exact if_neg hne)

/-- The rest of a stream, from byte `n` to the window's last, leaves the bytes before `n` and puts each of the others at
its place (R71). -/
theorem after_stream_inside {bs : List Byte} :
    ∀ {n : Nat} {q : Panel}, q.WritingAt w n → n + bs.length = w.nb * w.nr → ∀ j < w.nb * w.nr,
      (RamModel.default.after i.params q (streamEvents bs)).ram (w.rowAt j) (w.columnAt j)
        = if j < n then q.ram (w.rowAt j) (w.columnAt j) else bs[j - n]? := by
  induction bs with
  | nil =>
    intro n q h hlen j hj
    exact (if_pos (hj.trans_eq hlen.symm)).symm
  | cons b bs ih =>
    intro n q h hlen j hj
    obtain ⟨hnext, hram⟩ := h.onData hw b
    rw [List.length_cons] at hlen
    rw [streamEvents, List.map_cons, RamModel.after_cons, onEvent_data hpoll]
    refine (ih hnext (by omega) j hj).trans ?_
    rw [hram]
    obtain hlt | rfl | hgt := Nat.lt_trichotomy j n
    · have hne : ¬(w.rowAt j = w.rowAt n ∧ w.columnAt j = w.columnAt n) := fun hsame =>
        hlt.ne (Window.at_inj hj (by omega) hsame.1 hsame.2)
      rw [if_pos (Nat.lt_succ_of_lt hlt), if_pos hlt]
      exact if_neg hne
    · rw [if_pos (Nat.lt_succ_self j), if_neg (Nat.lt_irrefl j), Nat.sub_self]
      exact if_pos ⟨rfl, rfl⟩
    · rw [if_neg (by omega), if_neg (by omega), show j - n = j - (n + 1) + 1 by omega, List.getElem?_cons_succ]

end

/-! ## The preamble puts the panel at the window's start -/

section
variable {i : BlockInstance} (hpoll : i.params.busyWaitMode = .poll) {w : Window} (hw : w.InPanel i.params)
include hpoll hw

/-- SetMemoryWindow on the panel (R70, R160). -/
theorem after_windowEvents (q : Panel) :
    let q' := RamModel.default.after i.params q (windowEvents i.params w)
    q'.ram = q.ram ∧ q'.windowX = some (byteColumn w.xs, byteColumn w.xe) ∧ q'.windowY = some (w.ys, w.ye) := by
  obtain ⟨hx, hxe, hy, hye⟩ := hw
  have hxs := lt_of_le_of_lt hx hxe
  have hys := lt_of_le_of_lt hy hye
  simp [windowEvents, sentEvents, onEvent_cmd hpoll, onEvent_data hpoll, Panel.onData, Panel.latch,
    columnByte_toNat hxs, columnByte_toNat hxe, leValue_row hys, leValue_row hye]

/-- SetAddressPointer at the window's start, on the panel (R70, R163, R168). -/
theorem after_pointerEvents (q : Panel) (k : Nat) :
    let q' := RamModel.default.after i.params q (pointerEvents i.params w.xs w.ys k)
    q'.ram = q.ram ∧ q'.windowX = q.windowX ∧ q'.windowY = q.windowY
      ∧ q'.counterX = some (byteColumn w.xs) ∧ q'.counterY = some w.ys := by
  have hxs := lt_of_le_of_lt hw.xs_le_xe hw.xe_lt
  have hys := lt_of_le_of_lt hw.ys_le_ye hw.ye_lt
  simp [pointerEvents, sentEvents, onEvent_cmd hpoll, onEvent_data hpoll, Panel.onData, Panel.latch,
    after_waitIdle hpoll, columnByte_toNat hxs, leValue_row hys]

/-- After the preamble the panel takes stream bytes from the window's first, and holds what it held (R168). -/
theorem after_preambleEvents (q : Panel) (k : Nat) :
    let q' := RamModel.default.after i.params q (preambleEvents i.params w k)
    q'.ram = q.ram ∧ q'.WritingAt w 0 := by
  obtain ⟨hram, hwx, hwy⟩ := after_windowEvents hpoll hw q
  obtain ⟨hram', hwx', hwy', hcx, hcy⟩ :=
    after_pointerEvents hpoll hw (RamModel.default.after i.params q (windowEvents i.params w)) k
  simp only [preambleEvents, sentEvents, List.map_nil, RamModel.after_append, RamModel.after_cons, RamModel.after_nil,
    onEvent_cmd hpoll _ (nofun : CmdName.writeRam ≠ .deepSleepMode)]
  refine ⟨hram'.trans hram, hwx'.trans hwx, hwy'.trans hwy, ?_, ?_, rfl⟩
  · simpa [Window.columnAt] using hcx
  · simpa [Window.rowAt] using hcy

/-- A whole stream after its preamble: byte `j` stands at its place, and nothing outside the window has changed. -/
theorem after_preamble_stream {bs : List Byte} (hlen : bs.length = w.nb * w.nr) (q : Panel) (k : Nat) :
    let q' := RamModel.default.after i.params q (preambleEvents i.params w k ++ streamEvents bs)
    (∀ j < w.nb * w.nr, q'.ram (w.ys + j / w.nb) (byteColumn w.xs + j % w.nb) = bs[j]?)
    ∧ ∀ y x, ¬(w.ys ≤ y ∧ y ≤ w.ye ∧ byteColumn w.xs ≤ x ∧ x ≤ byteColumn w.xe) → q'.ram y x = q.ram y x := by
  obtain ⟨hram, hat⟩ := after_preambleEvents hpoll hw q k
  rw [RamModel.after_append]
  refine ⟨fun j hj => ?_, fun y x hout => ?_⟩
  · have hin := after_stream_inside hw hpoll hat ((Nat.zero_add _).trans hlen) j hj
    rwa [if_neg (Nat.not_lt_zero j), Nat.sub_zero, Window.rowAt, Nat.mod_eq_of_lt (Nat.div_lt_of_lt_mul hj)] at hin
  · rw [after_stream_outside hw hpoll hout hat, hram]

end

/-! ## DRAW and CLEAR on the panel -/

/-- A DRAW sends a byte for every byte of its window (R191). -/
theorem packedBytes_length (p : Params) (l : Latches) (m : Memory) :
    (packedBytes p l m).length = (drawRect p l).nb * (drawRect p l).nr := by
  simp [packedBytes]

/-- Settles O53: a DRAW is the preamble and the stream of its window. -/
theorem drawBytesLandInTheirWindow : Obligations.DrawBytesLandInTheirWindow := by
  intro i l m k q hv hpoll
  exact after_preamble_stream hpoll (drawRect_inPanel hv) (packedBytes_length i.params l m) q k

/-- Settles O54: CLEAR's window is the panel, and byte `x + nb * y` of its stream is the fill byte, like every other. -/
theorem clearFillsThePanel : Obligations.ClearFillsThePanel := by
  intro i fill k q hpoll y x hy hx
  have hx' : x < rowBytes i.params := hx
  have hlen : (List.replicate (frameBytes i.params) fill).length
      = (fullWindow i.params).nb * (fullWindow i.params).nr := by
    rw [List.length_replicate, fullWindow_nb, fullWindow_nr, frameBytes]
  have hj : x + rowBytes i.params * y < frameBytes i.params := by
    have hrows : rowBytes i.params * (y + 1) ≤ frameBytes i.params := Nat.mul_le_mul_left _ hy
    rw [Nat.mul_succ] at hrows
    omega
  obtain ⟨hrow, hcol⟩ := (Nat.div_mod_unique (Nat.zero_lt_of_lt hx')).mpr ⟨rfl, hx'⟩
  obtain ⟨hplaces, -⟩ := after_preamble_stream hpoll (fullWindow_inPanel i) hlen q k
  have hbyte := hplaces _ (by rwa [← hlen, List.length_replicate])
  rw [fullWindow_nb, hrow, hcol, List.getElem?_replicate_of_lt hj] at hbyte
  simpa [clearEvents, fullWindow, byteColumn] using hbyte

end Sys2Proof.Machine
end

section
/-! PROOFS. Decoder and encoder agree (R80-R84, R86, R89, R94): the fields of a format H word, what a word or a command
byte decodes to, and the count of the legal words (R84). -/

namespace Sys2Proof.Machine

/-! ## The fields of a format H word (R80) -/

@[simp] theorem opcField_opWordOf (opc : BitVec 4) (md : BitVec 1) (fill : Byte) :
    opcField (opWordOf opc md fill) = opc := by
  ext k hk; interval_cases k <;> simp [opcField, opWordOf]
@[simp] theorem modeField_opWordOf (opc : BitVec 4) (md : BitVec 1) (fill : Byte) :
    modeField (opWordOf opc md fill) = md := by
  ext k hk; interval_cases k; simp [modeField, opWordOf]
@[simp] theorem resField_opWordOf (opc : BitVec 4) (md : BitVec 1) (fill : Byte) :
    resField (opWordOf opc md fill) = 0#3 := by
  ext k hk; interval_cases k <;> simp [resField, opWordOf]
@[simp] theorem fillField_opWordOf (opc : BitVec 4) (md : BitVec 1) (fill : Byte) :
    fillField (opWordOf opc md fill) = fill := by
  ext k hk; interval_cases k <;> simp [fillField, opWordOf]
@[simp] theorem highField_opWordOf (opc : BitVec 4) (md : BitVec 1) (fill : Byte) :
    highField (opWordOf opc md fill) = 0#16 := by
  ext k hk; interval_cases k <;> simp [highField, opWordOf]

/-- Two words with the same fields are one word: the five fields cover all 32 bits. -/
theorem word_eq_of_fields {v w : Word} (hopc : opcField v = opcField w) (hmode : modeField v = modeField w)
    (hres : resField v = resField w) (hfill : fillField v = fillField w) (hhigh : highField v = highField w) :
    v = w := by
  have hopc := congrArg BitVec.toNat hopc
  have hmode := congrArg BitVec.toNat hmode
  have hres := congrArg BitVec.toNat hres
  have hfill := congrArg BitVec.toNat hfill
  have hhigh := congrArg BitVec.toNat hhigh
  simp only [opcField, modeField, resField, fillField, highField, BitVec.extractLsb'_toNat]
    at hopc hmode hres hfill hhigh
  apply BitVec.eq_of_toNat_eq
  omega

/-- A word whose reserved bits are 0 is put together from its other fields (R80, R82). -/
theorem opWordOf_fields {w : Word} (hhigh : highField w = 0#16) (hres : resField w = 0#3) :
    opWordOf (opcField w) (modeField w) (fillField w) = w :=
  word_eq_of_fields (by simp) (by simp) (by simp [hres]) (by simp) (by simp [hhigh])

@[simp] theorem modeOf_modeBit (mode : LutMode) : modeOf (modeBit mode) = mode := by cases mode <;> rfl

@[simp] theorem modeBit_modeOf (md : BitVec 1) : modeBit (modeOf md) = md := by
  obtain rfl | rfl := BitVec.eq_zero_or_eq_one md <;> rfl

/-! ## Op words -/

/-- An op without operands decodes exactly where MD and FILL are 0 (R82). -/
theorem decodePlain_eq_ok {i j : Instr} {w : Word} :
    decodePlain i w = .ok j ↔ modeField w = 0#1 ∧ fillField w = 0#8 ∧ i = j := by
  unfold decodePlain
  split_ifs <;> simp_all

/-- The word of an instruction decodes to it (R81, R83, R84). -/
theorem decodeHost_of_encode {t : CmdTable} {i : Instr} {w : Word} (h : encode t i = .opWord w) :
    decodeHost w = .ok i := by
  cases i with
  | init | setlut | clear | draw | refresh | sleep =>
    obtain rfl := Encoding.opWord.inj h
    simp [decodeHost, decodePlain]
  | _ => cases h

/-- A word that decodes is the word of what it decodes to: each accepted OPC fixes the fields the op does not use. -/
theorem encode_of_decodeHost {t : CmdTable} {i : Instr} {w : Word} (h : decodeHost w = .ok i) :
    encode t i = .opWord w := by
  by_cases hzero : highField w ≠ 0#16 ∨ resField w ≠ 0#3
  · rw [decodeHost, if_pos hzero] at h
    cases h
  · rw [decodeHost, if_neg hzero] at h
    simp only [not_or, not_not] at hzero
    obtain ⟨hhigh, hres⟩ := hzero
    rw [← opWordOf_fields hhigh hres]
    split_ifs at h with hinit hfill hsetlut hfill hclear hmode hdraw hrefresh hsleep
    · obtain rfl := Except.ok.inj h
      simp [encode, hinit, not_not.mp hfill]
    · obtain rfl := Except.ok.inj h
      simp [encode, hsetlut, not_not.mp hfill]
    · obtain rfl := Except.ok.inj h
      simp [encode, hclear, not_not.mp hmode]
    · obtain ⟨hmode, hfill, rfl⟩ := decodePlain_eq_ok.mp h
      simp [encode, hdraw, hmode, hfill]
    · obtain ⟨hmode, hfill, rfl⟩ := decodePlain_eq_ok.mp h
      simp [encode, hrefresh, hmode, hfill]
    · obtain ⟨hmode, hfill, rfl⟩ := decodePlain_eq_ok.mp h
      simp [encode, hsleep, hmode, hfill]

/-- The legal words of the host decoder are the words of the host operations (R84). -/
theorem decodeHost_eq_ok {t : CmdTable} {i : Instr} {w : Word} :
    decodeHost w = .ok i ↔ encode t i = .opWord w :=
  ⟨encode_of_decodeHost, decodeHost_of_encode⟩

/-! ## Command bytes -/

/-- The byte of a bus command is its code (R86, R94). -/
@[simp] theorem encode_toInstr (t : CmdTable) (c : CmdName) : encode t c.toInstr = .busCode (t.code c) := by
  cases c <;> rfl

/-- A byte that names a command is that command's code. -/
theorem code_of_cmdOfCode {t : CmdTable} {b : Byte} {c : CmdName} (h : cmdOfCode t b = some c) : t.code c = b :=
  eq_of_beq (List.find?_some (p := fun c => t.code c == b) h)

/-- A byte decodes to the command it names, and to nothing else (R88, R89). -/
theorem decodeBus_eq_ok {t : CmdTable} {b : Byte} {i : Instr} :
    decodeBus t b = .ok i ↔ ∃ c, cmdOfCode t b = some c ∧ i = c.toInstr := by
  unfold decodeBus
  cases cmdOfCode t b <;> simp [eq_comm]

/-! ## Both formats -/

/-- A host operation is encoded in format H (R81). -/
theorem encode_hostOp {i : Instr} {o : OpCode × LutMode × Byte} (h : hostOpOf i = some o) (t : CmdTable) :
    ∃ w, encode t i = .opWord w := by
  cases i with
  | init | setlut | clear | draw | refresh | sleep => exact ⟨_, rfl⟩
  | _ => cases h

/-- Settles O2, format by format. -/
theorem decodeOfEncodeIsIdentity : Obligations.DecodeOfEncodeIsIdentity := by
  intro t ht i
  obtain ⟨op, mode, fill, hop⟩ | ⟨c, rfl⟩ := hostOp_or_toInstr i
  · obtain ⟨w, hw⟩ := encode_hostOp hop t
    rw [hw]
    exact decodeHost_of_encode hw
  · rw [encode_toInstr]
    exact decodeBus_eq_ok.mpr ⟨c, cmdOfCode_code ht c, rfl⟩

/-- Settles O3, format by format. -/
theorem encodeOfDecodeIsIdentity : Obligations.EncodeOfDecodeIsIdentity := by
  intro t e i h
  cases e with
  | opWord w => exact encode_of_decodeHost h
  | busCode b =>
    obtain ⟨c, hc, rfl⟩ := decodeBus_eq_ok.mp h
    rw [encode_toInstr, code_of_cmdOfCode hc]

/-! ## The count of the legal words (R84) -/

/-- The legal words but for CLEAR's: two each of INIT and SETLUT, and DRAW, REFRESH and SLEEP. -/
def wordsWithoutFill : List Word :=
  [0x00000001#32, 0x00000011#32, 0x00000002#32, 0x00000012#32, 0x00000004#32, 0x00000005#32, 0x00000006#32]

/-- The words of CLEAR, one for each fill byte. -/
def clearWords : List Word := (List.finRange 256).map fun k => opWordOf 0x3#4 0#1 (BitVec.ofFin k)

theorem mem_clearWords {w : Word} : w ∈ clearWords ↔ ∃ fill : Byte, opWordOf 0x3#4 0#1 fill = w := by
  simp only [clearWords, List.mem_map, List.mem_finRange, true_and]
  exact ⟨fun ⟨k, hk⟩ => ⟨_, hk⟩, fun ⟨fill, hf⟩ => ⟨fill.toFin, hf⟩⟩

/-- The lists hold exactly the words of the host operations. -/
theorem mem_legalWords {w : Word} :
    w ∈ wordsWithoutFill ++ clearWords ↔ ∃ i, encode Config.defaultCmd i = .opWord w := by
  rw [List.mem_append, mem_clearWords]
  constructor
  · rintro (h | ⟨fill, rfl⟩)
    · simp only [wordsWithoutFill, List.mem_cons, List.not_mem_nil, or_false] at h
      obtain rfl | rfl | rfl | rfl | rfl | rfl | rfl := h
      · exact ⟨.init .fullUpdate, rfl⟩
      · exact ⟨.init .partialUpdate, rfl⟩
      · exact ⟨.setlut .fullUpdate, rfl⟩
      · exact ⟨.setlut .partialUpdate, rfl⟩
      · exact ⟨.draw, rfl⟩
      · exact ⟨.refresh, rfl⟩
      · exact ⟨.sleep, rfl⟩
    · exact ⟨.clear fill, rfl⟩
  · rintro ⟨i, hi⟩
    cases i with
    | clear fill => exact .inr ⟨fill, Encoding.opWord.inj hi⟩
    | init mode | setlut mode =>
      obtain rfl := Encoding.opWord.inj hi
      cases mode <;> exact .inl (by decide)
    | draw | refresh | sleep =>
      obtain rfl := Encoding.opWord.inj hi
      exact .inl (by decide)
    | _ => cases hi

/-- A CLEAR word gives its fill byte back. -/
theorem clearWords_nodup : clearWords.Nodup := by
  refine List.Nodup.map (fun j k hjk => ?_) (List.nodup_finRange 256)
  have hfill := congrArg fillField hjk
  simp only [fillField_opWordOf] at hfill
  exact BitVec.ofFin.inj hfill

/-- No legal word is listed twice: only a CLEAR word has CLEAR's OPC. -/
theorem legalWords_nodup : (wordsWithoutFill ++ clearWords).Nodup := by
  refine List.nodup_append'.mpr ⟨by decide, clearWords_nodup, ?_⟩
  intro w hw hc
  obtain ⟨fill, rfl⟩ := mem_clearWords.mp hc
  have hopc : ∀ v ∈ wordsWithoutFill, opcField v ≠ 0x3#4 := by
    simp [wordsWithoutFill, opcField]
  exact hopc _ hw (opcField_opWordOf _ _ _)

/-- Settles O4: 7 words without a fill byte and 256 words of CLEAR. -/
theorem legalOpWordsAre263 : Obligations.LegalOpWordsAre263 := by
  refine ⟨wordsWithoutFill ++ clearWords, legalWords_nodup, ?_, fun w => ?_⟩
  · simp [wordsWithoutFill, clearWords]
  · simp only [decodeHost_eq_ok (t := Config.defaultCmd), mem_legalWords]

/-- Settles O1: each word is decoded by evaluation. -/
theorem specWordsDecode : Obligations.SpecWordsDecode :=
  ⟨rfl, rfl, rfl, rfl, rfl, rfl, rfl, rfl, rfl, rfl, rfl, rfl, rfl, rfl, rfl⟩

end Sys2Proof.Machine
end

section
/-! PROOFS. Every instruction is run and answered (R84, R86, R230), what the sixteen bus commands leave alone (R86,
R181), and where a command byte comes from (R88). -/

namespace Sys2Proof.Machine

/-! ## Running an instruction -/

/-- Settles O6: the action is an `OP` write, which runs what its word decodes to. -/
theorem stepRunsDecodedOpWrite : Obligations.StepRunsDecodedOpWrite := by
  intro s w rest i hrel hh hd
  rw [step_of_action hrel hh, hostAct_wregOp, opWrite_of_decodes hd]

/-- Settles O9: a host operation ends in admission, a bus command in its bus event. -/
theorem everyInstructionAnswersANextState : Obligations.EveryInstructionAnswersANextState := by
  intro i s
  obtain ⟨op, mode, fill, hop⟩ | ⟨c, rfl⟩ := hostOp_or_toInstr i
  · exact ⟨_, exec_of_hostOp hop s⟩
  · exact ⟨_, exec_toInstr c s⟩

/-! ## The frame of a bus command -/

/-- Everything `exec` of a bus command can do: the event changes only the trace, the payload, the stream counter and the
response taken, and then the op goes on or raises (R86, R262). -/
theorem exec_toInstr_cases {c : CmdName} {s t : State} (h : exec c.toInstr s = .next t) :
    (s.nextResp = .ok ∧ t = State.advance { s.takeResp with
      trace := s.trace ++ [.cmd (s.params.cmd.code c) .ok]
      payload := payloadOf c s
      stream := streamAfter c s })
    ∨ (s.nextResp = .err ∧ t = (s.takeResp.emit (.cmd (s.params.cmd.code c) .err)).raiseTransportFailure) := by
  rw [exec_toInstr] at h
  obtain rfl := Host.Outcome.next.inj h
  obtain ⟨hok, he⟩ | ⟨herr, he⟩ := State.busEvent_cases (Event.cmd (s.params.cmd.code c)) _ s
  · refine .inl ⟨hok, he.trans ?_⟩
    simp [State.emit, streamAfter, State.params]
  · exact .inr ⟨herr, he⟩

/-- Settles O28: the frame's fields are none of those that the event, its continuation and its failure write; while the
op goes on, `advance` moves `sp` alone. -/
theorem busCommandsFrame : Obligations.BusCommandsFrame := by
  intro s t c h
  obtain ⟨hok, rfl⟩ | ⟨herr, rfl⟩ := exec_toInstr_cases h
  · refine ⟨?_, by simp, by simp, by simp, fun _ hlt => ?_⟩
    · constructor <;> simp
    · rw [State.advance_of_lt (by simpa [State.steps, State.params] using hlt)]
      refine ⟨by simp, by simp, by simp, by simp, by simp, by simp, fun hc => ?_⟩
      simp [streamAfter, hc]
  · refine ⟨?_, by simp, by simp, by simp, fun hok => ?_⟩
    · constructor <;> simp
    · simp [herr] at hok

/-! ## Where a command byte comes from -/

/-- An event that the block's turn appends fits the step `sp` names. -/
theorem blockStep_event {s t : State} {e : Event} (h : blockStep s = .next t) (ht : t.trace = s.trace ++ [e]) :
    ∃ m, s.steps[s.sp]? = some m ∧ EventFits m s e := by
  obtain ⟨-, rfl⟩ | ⟨-, m, hm, hrun⟩ := blockStep_cases h
  · simp at ht
  · obtain ⟨s', e', core, hfits, ⟨-, rfl⟩ | ⟨-, rfl | rfl⟩⟩ := runMicroStep_shape hrun <;>
      obtain rfl : e' = e := by simpa [core.trace] using ht
    all_goals exact ⟨m, hm, hfits⟩

/-- An event that a step appends is the block's, and fits the step `sp` names (R40). -/
theorem step_event {s t : State} {e : Event} (h : step s = .next t) (ht : t.trace = s.trace ++ [e]) :
    ∃ m, s.steps[s.sp]? = some m ∧ EventFits m s e := by
  obtain ⟨hr, hs⟩ | ⟨hrel, hs⟩ := step_turns s <;> rw [hs] at h
  · rw [← resetTurn_held hr h] at ht
    simp at ht
  · obtain ⟨-, hb⟩ | ⟨a, rest, -, ha⟩ := releasedTurn_cases h
    · exact blockStep_event hb ht
    · obtain hb | ⟨-, hnil⟩ | hsame := hostAct_trace (s := { s with host := rest }) hrel ha
      · exact blockStep_event (s := { s with host := rest }) hb ht
      · simp [hnil] at ht
      · simp [hsame] at ht

/-- Settles O38 by `step_event`. -/
theorem onlyListedCommandsAreSent : Obligations.OnlyListedCommandsAreSent := by
  intro s t b r h ht
  obtain ⟨m, hm, c, rfl, hb⟩ := step_event h ht
  exact ⟨c, hb, hm⟩

end Sys2Proof.Machine
end

section
/-! PROOFS. What a packed byte holds (R111, R112, R114), and how many bytes a DRAW streams (R117, R166). -/

namespace Sys2Proof.Machine

/-! ## The bits of a packed byte -/

/-- The mask of bit position `n`, counted from the left, has one bit (R111). -/
theorem mask_getLsbD {n b : Nat} (hn : n < 8) (hb : b < 8) : (0x80#8 >>> n).getLsbD (7 - b) = decide (b = n) := by
  interval_cases n <;> interval_cases b <;> rfl

/-- After `n` bit positions, those of an image column whose pixel is above 0 are set, and no other (R110, R114). -/
theorem packBits_getLsbD {width g n b : Nat} {pix : Nat → Byte} (hn : n ≤ 8) (hb : b < 8) :
    (packBits width pix g n).getLsbD (7 - b) = true
      ↔ b < n ∧ 8 * g + b < width ∧ 0 < (pix (8 * g + b)).toNat := by
  induction n with
  | zero => simp [packBits]
  | succ n ih =>
    have ih := ih (Nat.le_of_succ_le hn)
    by_cases hpix : 8 * g + n < width ∧ 0 < (pix (8 * g + n)).toNat
    · rw [packBits, if_pos hpix, BitVec.getLsbD_or, Bool.or_eq_true, mask_getLsbD hn hb, decide_eq_true_eq, ih,
        Nat.lt_succ_iff_lt_or_eq, or_and_right]
      exact or_congr_right (and_iff_left_of_imp fun h => h ▸ hpix).symm
    · rw [packBits, if_neg hpix, ih, Nat.lt_succ_iff_lt_or_eq, or_and_right]
      exact (or_iff_left fun ⟨h, hset⟩ => hpix (h ▸ hset)).symm

/-- Settles O47: PackByte is all eight positions of `packBits_getLsbD`. -/
theorem packedBitIsThreshold : Obligations.PackedBitIsThreshold := by
  intro s r g b hb
  rw [State.packByte, packBits_getLsbD le_rfl hb]
  exact and_iff_right hb

/-! ## The length of the stream -/

/-- An image that fits the panel to the right has a byte column for every eight of its columns (R166). -/
theorem drawRect_nb_of_fits {p : Params} {l : Latches} (hw : 1 ≤ l.w.toNat)
    (hfits : l.x.toNat / 8 * 8 + l.w.toNat ≤ p.panelWidth) : (drawRect p l).nb = (l.w.toNat + 7) / 8 := by
  simp only [Window.nb, drawRect, byteColumn, alignDown8]
  omega

/-- An image that fits the panel to the bottom has all its rows in the window (R166). -/
theorem drawRect_nr_of_fits {p : Params} {l : Latches} (hh : 1 ≤ l.h.toNat)
    (hfits : l.y.toNat + l.h.toNat ≤ p.panelHeight) : (drawRect p l).nr = l.h.toNat := by
  simp only [Window.nr, drawRect]
  omega

/-- Settles O49: `packedBytes_length`, and the two sides of an unclamped window. -/
theorem packedLength : Obligations.PackedLength := by
  intro i l m hv
  obtain ⟨hw, hh, -, -, -⟩ := drawArgsValid_iff.mp hv
  refine ⟨packedBytes_length _ _ _, fun hright hbottom => ?_⟩
  rw [packedBytes_length, drawRect_nb_of_fits hw hright, drawRect_nr_of_fits hh hbottom]

end Sys2Proof.Machine
end

section
/-! PROOFS. Runs of the block with the host quiet and every response `ok`: how runs are put together, and a whole
transaction (R86). -/

namespace Sys2Proof.Machine

/-! ## Putting runs together -/

theorem run_succ {s t : State} (h : step s = .next t) (n : Nat) : core.run (n + 1) s = core.run n t := by
  simp only [Host.Core.run, show core.step s = .next t from h]

/-- A run that answers has answered at its first step. -/
theorem run_succ_eq_next {n : Nat} {s u : State} (h : core.run (n + 1) s = .next u) :
    ∃ t, step s = .next t ∧ core.run n t = .next u := by
  simp only [Host.Core.run] at h
  split at h
  next t ht => exact ⟨t, ht, h⟩
  all_goals cases h

theorem run_add {m n : Nat} {s u : State} (h : core.run m s = .next u) : core.run (m + n) s = core.run n u := by
  induction m generalizing s with
  | zero => obtain rfl := Host.Outcome.next.inj h; rw [Nat.zero_add]
  | succ m ih =>
    obtain ⟨t, ht, hrun⟩ := run_succ_eq_next h
    rw [Nat.succ_add, run_succ ht, ih hrun]

/-- As many steps as `es` has events lead from `s` to `u`, and those are the events they append (log entry 10). -/
structure Performs (s : State) (es : List Event) (u : State) : Prop where
  run : core.run es.length s = .next u
  trace : u.trace = s.trace ++ es

theorem Performs.refl (s : State) : Performs s [] s := ⟨rfl, (List.append_nil _).symm⟩

theorem Performs.of_step {s t : State} {e : Event} (h : step s = .next t) (ht : t.trace = s.trace ++ [e]) :
    Performs s [e] t := ⟨run_succ h 0, ht⟩

theorem Performs.trans {s u v : State} {es fs : List Event} (h : Performs s es u) (h' : Performs u fs v) :
    Performs s (es ++ fs) v where
  run := by rw [List.length_append, run_add h.run, h'.run]
  trace := by rw [h'.trace, h.trace, List.append_assoc]

/-! ## The block's turn, with the host quiet -/

/-- An op runs and the host is quiet, so that every step is the running op's next event (log entry 1). -/
structure OnTurn (s : State) : Prop where
  running : s.phase = .run
  released : s.resetInput = false
  quiet : s.host = []

theorem OnTurn.step_eq {s : State} {m : MicroStep} (h : OnTurn s) (hm : s.steps[s.sp]? = some m) :
    step s = runMicroStep m s := by
  rw [step_of_quiet h.released h.quiet, blockStep_of_step h.running hm]

/-- The step `sp` names is the head of the steps still to perform. -/
theorem State.step_of_todo {s : State} {m : MicroStep} {tail : List MicroStep} (h : s.steps.drop s.sp = m :: tail) :
    s.steps[s.sp]? = some m := by
  rw [← List.head?_drop, h, List.head?_cons]

/-- Once the head has been performed, the tail is still to perform. -/
theorem State.todo_after {s : State} {l tail : List MicroStep} {n : Nat} (h : s.steps.drop s.sp = l ++ tail)
    (hn : l.length = n) : s.steps.drop (s.sp + n) = tail := by
  rw [← List.drop_drop, h, ← hn, List.drop_left]

/-- A step is left to perform: `advance` moves `sp` alone. -/
theorem State.advance_of_todo {s : State} (h : s.steps.drop (s.sp + 1) ≠ []) :
    s.advance = { s with sp := s.sp + 1 } :=
  State.advance_of_lt (Nat.lt_of_not_le fun hle => h (List.drop_eq_nil_of_le hle))

/-- A bus event that the script answers with `ok`. -/
theorem State.busEvent_of_script {s : State} {rs : List Resp} (h : s.busScript = .ok :: rs) (e : Resp → Event)
    (next : State → State) :
    s.busEvent e next = next { s with trace := s.trace ++ [e .ok], busScript := rs } := by
  rw [State.busEvent_of_ok (State.nextResp_of_script h), State.takeResp, h]
  rfl

/-! ## A transaction -/

/-- One data byte of a transaction (R86). -/
theorem OnTurn.step_dataByte {s : State} {b : Byte} {bs : List Byte} {rs : List Resp} (h : OnTurn s)
    (hm : s.steps[s.sp]? = some .dataByte) (hp : s.payload = b :: bs) (hscript : s.busScript = .ok :: rs) :
    step s
      = .next (State.advance { s with trace := s.trace ++ [.data b .ok], busScript := rs, payload := bs }) := by
  rw [h.step_eq hm, runMicroStep, dataByteStep, hp]
  exact congrArg Host.Outcome.next (State.busEvent_of_script hscript _ _)

/-- The data bytes of a transaction, one a step, after a step `x` that has left them due; `sp` ends after the last
(R86). -/
theorem OnTurn.performs_dataBytes {bytes : List Byte} :
    ∀ {x : State} {tail : List MicroStep} {rest : List Resp}, OnTurn x → x.payload = bytes →
      x.steps.drop (x.sp + 1) = List.replicate bytes.length .dataByte ++ tail →
      x.busScript = List.replicate bytes.length .ok ++ rest →
      Performs x.advance (streamEvents bytes) (State.advance { x with
        sp := x.sp + bytes.length
        trace := x.trace ++ streamEvents bytes
        busScript := rest
        payload := [] }) := by
  induction bytes with
  | nil =>
    intro x tail rest _ hp _ hscript
    have hx : { x with sp := x.sp + 0, trace := x.trace ++ [], busScript := rest, payload := [] } = x := by
      rw [List.append_nil, Nat.add_zero, ← hp, show rest = x.busScript from hscript.symm]
    exact (congrArg (fun y => Performs x.advance [] y.advance) hx).mpr (.refl _)
  | cons b bs ih =>
    intro x tail rest hx hp htodo hscript
    rw [State.advance_of_todo (by simp [htodo, List.replicate_succ])]
    have hstep := OnTurn.step_dataByte (s := { x with sp := x.sp + 1 }) ⟨hx.running, hx.released, hx.quiet⟩
      (State.step_of_todo htodo) hp hscript
    have hrest := ih (x := { x with
        sp := x.sp + 1
        trace := x.trace ++ [.data b .ok]
        busScript := List.replicate bs.length .ok ++ rest
        payload := bs }) (tail := tail) (rest := rest) ⟨hx.running, hx.released, hx.quiet⟩ rfl ?_ rfl
    · have h := (Performs.of_step (e := .data b .ok) hstep (by simp)).trans hrest
      simpa [streamEvents, Nat.add_assoc, Nat.add_comm 1] using h
    · exact State.todo_after (l := [.dataByte]) (s := { x with sp := x.sp + 1 }) htodo rfl

/-- The state after command `c` and its data bytes, where steps are left to perform (R86). -/
def State.sent (c : CmdName) (s : State) : State :=
  { s with
    sp := s.sp + payloadLength c + 1
    trace := s.trace ++ sentEvents s.params c (payloadOf c s)
    busScript := s.busScript.drop (payloadLength c + 1)
    payload := []
    stream := streamAfter c s }

/-- A command's whole transaction, from `exec` on; it may be the op's last (R86, R233). -/
theorem OnTurn.exec_transaction {s : State} {c : CmdName} {tail : List MicroStep} {rest : List Resp} (h : OnTurn s)
    (htodo : s.steps.drop s.sp = transaction c ++ tail)
    (hscript : s.busScript = List.replicate (payloadLength c + 1) .ok ++ rest) :
    ∃ t, exec c.toInstr s = .next t ∧ t.trace = s.trace ++ [.cmd (s.params.cmd.code c) .ok]
      ∧ Performs t (streamEvents (payloadOf c s)) (State.advance { s.sent c with sp := s.sp + payloadLength c }) := by
  have hlen := payloadOf_length c s
  have hexec := exec_toInstr c s
  rw [State.busCmd, State.busEvent_of_script (rs := List.replicate (payloadLength c) .ok ++ rest)
    (by simpa [List.replicate_succ] using hscript)] at hexec
  refine ⟨_, hexec, by simp, ?_⟩
  have hbytes := OnTurn.performs_dataBytes (bytes := payloadOf c s) (tail := tail) (rest := rest) (x := { s with
      trace := s.trace ++ [.cmd (s.params.cmd.code c) .ok]
      busScript := List.replicate (payloadLength c) .ok ++ rest
      payload := payloadOf c s
      stream := streamAfter c s }) ⟨h.running, h.released, h.quiet⟩ rfl ?_ (by rw [hlen])
  · simpa [State.sent, streamAfter, State.params, hscript, sentEvents, streamEvents, hlen] using hbytes
  · rw [hlen]
    exact State.todo_after (l := [.bus c]) htodo rfl

/-- A command's whole transaction, from its step on, with the assignments that open its sub-sequence (R86, R160,
R163). -/
theorem OnTurn.performs_transaction {s : State} {c : CmdName} {tail : List MicroStep} {rest : List Resp} (h : OnTurn s)
    (htodo : s.steps.drop s.sp = transaction c ++ tail)
    (hscript : s.busScript = List.replicate (payloadLength c + 1) .ok ++ rest) :
    Performs s (sentEvents s.params c (payloadOf c (s.enterSubsequence c)))
      (State.advance { (s.enterSubsequence c).sent c with sp := s.sp + payloadLength c }) := by
  have hturn : OnTurn (s.enterSubsequence c) := ⟨by simp [h.running], by simp [h.released], by simp [h.quiet]⟩
  obtain ⟨t, hexec, htrace, hrun⟩ := hturn.exec_transaction (by simpa using htodo) (by simpa using hscript)
  have hstep : step s = .next t := by rw [h.step_eq (State.step_of_todo htodo), runMicroStep, hexec]
  rw [State.params_enterSubsequence, State.enterSubsequence_trace] at htrace
  simpa [sentEvents, streamEvents] using (Performs.of_step hstep htrace).trans hrun

end Sys2Proof.Machine
end

section
/-! PROOFS. The parts of an op with the host quiet and every response `ok`: a WaitIdle (R210, R211), what precedes a
stream (R168), acceptance (R232) and the end (R233). -/

namespace Sys2Proof.Machine

/-! ## WaitIdle -/

/-- A High reading (R210). -/
theorem OnTurn.step_high {s : State} {rs : List BusyResp} (h : OnTurn s) (hm : s.steps[s.sp]? = some .poll)
    (ht : s.timer = none) (hscript : s.busyScript = .high :: rs) :
    step s = .next { s with
      trace := s.trace ++ [.busy .high]
      busyScript := rs
      timer := some Config.pollIntervalMs } := by
  simp only [h.step_eq hm, runMicroStep, State.pollStep, ht, State.nextBusy, State.takeBusy, hscript, State.emit]

/-- The wait that follows a High reading (R210). -/
theorem OnTurn.step_wait {s : State} {ms : Nat} (h : OnTurn s) (hm : s.steps[s.sp]? = some .poll)
    (ht : s.timer = some ms) : step s = .next { s with trace := s.trace ++ [.wait ms], timer := none } := by
  simp only [h.step_eq hm, runMicroStep, State.pollStep, ht, State.emit]

/-- A Low reading ends WaitIdle (R210). -/
theorem OnTurn.step_low {s : State} {rs : List BusyResp} (h : OnTurn s) (hm : s.steps[s.sp]? = some .poll)
    (ht : s.timer = none) (hscript : s.busyScript = .low :: rs) :
    step s = .next (State.advance { s with trace := s.trace ++ [.busy .low], busyScript := rs }) := by
  simp only [h.step_eq hm, runMicroStep, State.pollStep, ht, State.nextBusy, State.takeBusy, hscript, State.emit]

/-- What `k` High readings append (R210). -/
def highEvents (k : Nat) : List Event :=
  (List.replicate k [Event.busy .high, Event.wait Config.pollIntervalMs]).flatten

theorem highEvents_succ (k : Nat) :
    highEvents (k + 1) = .busy .high :: .wait Config.pollIntervalMs :: highEvents k := rfl

theorem waitIdleSteps_of_poll {p : Params} (h : p.busyWaitMode = .poll) : waitIdleSteps p = [.poll] := by
  rw [waitIdleSteps, h]

theorem waitIdleSteps_of_noop {p : Params} (h : p.busyWaitMode = .referenceNoop) : waitIdleSteps p = [] := by
  rw [waitIdleSteps, h]

theorem waitIdleEvents_of_poll {p : Params} (h : p.busyWaitMode = .poll) (k : Nat) :
    waitIdleEvents p k = highEvents k ++ [.busy .low] := by
  rw [waitIdleEvents, h, highEvents]

theorem waitIdleEvents_of_noop {p : Params} (h : p.busyWaitMode = .referenceNoop) (k : Nat) :
    waitIdleEvents p k = [] := by
  rw [waitIdleEvents, h]

/-- As long as the readings are High, the op stays at its poll (R210, R266). -/
theorem OnTurn.performs_highReadings {rest : List BusyResp} :
    ∀ {k : Nat} {s : State}, OnTurn s → s.steps[s.sp]? = some .poll → s.timer = none →
      s.busyScript = List.replicate k .high ++ rest →
      Performs s (highEvents k) { s with trace := s.trace ++ highEvents k, busyScript := rest } := by
  intro k
  induction k with
  | zero =>
    intro s _ _ _ hscript
    have hs : { s with trace := s.trace ++ [], busyScript := rest } = s := by
      rw [List.append_nil, show rest = s.busyScript from hscript.symm]
    exact (congrArg (Performs s []) hs).mpr (.refl s)
  | succ k ih =>
    intro s h hm ht hscript
    have hhigh := h.step_high hm ht (hscript.trans (by rw [List.replicate_succ, List.cons_append]))
    have hwait := OnTurn.step_wait (s := { s with
        trace := s.trace ++ [.busy .high]
        busyScript := List.replicate k .high ++ rest
        timer := some Config.pollIntervalMs }) ⟨h.running, h.released, h.quiet⟩ hm rfl
    have hrest := ih (s := { s with
        trace := s.trace ++ [.busy .high] ++ [.wait Config.pollIntervalMs]
        busyScript := List.replicate k .high ++ rest
        timer := none }) ⟨h.running, h.released, h.quiet⟩ hm rfl rfl
    have hall := (Performs.of_step (e := .busy .high) hhigh rfl).trans
      ((Performs.of_step (e := .wait Config.pollIntervalMs) hwait rfl).trans hrest)
    simpa [highEvents_succ, ht] using hall

/-- WaitIdle in POLL mode, with `k` High readings before the Low one; it may be the op's last step (R210, R233). -/
theorem OnTurn.performs_poll {s : State} {k : Nat} {rest : List BusyResp} (h : OnTurn s)
    (hm : s.steps[s.sp]? = some .poll) (ht : s.timer = none)
    (hscript : s.busyScript = List.replicate k .high ++ .low :: rest) :
    Performs s (highEvents k ++ [.busy .low]) (State.advance { s with
      trace := s.trace ++ highEvents k ++ [.busy .low]
      busyScript := rest }) := by
  have hlow := OnTurn.step_low (s := { s with trace := s.trace ++ highEvents k, busyScript := .low :: rest })
    ⟨h.running, h.released, h.quiet⟩ hm ht rfl
  exact (h.performs_highReadings hm ht hscript).trans (.of_step hlow (by simp))

/-! ## An op on its way, with every response `ok` -/

/-- The op in `s` stands before the steps `todo`, with the host quiet and the next `oks` responses `ok`. -/
structure OpAt (s : State) (todo : List MicroStep) (oks : Nat) (rest : List Resp) : Prop extends OnTurn s where
  todo : s.steps.drop s.sp = todo
  timer : s.timer = none
  script : s.busScript = List.replicate oks .ok ++ rest

/-- What every event of an op leaves alone while the op goes on: beside what `SameOp` says, the argument registers, RST,
what the host has left to do and what it has read. -/
structure GoesOn (s t : State) : Prop extends SameOp s t where
  origin : t.origin = s.origin
  bmpsize : t.bmpsize = s.bmpsize
  bmpbase : t.bmpbase = s.bmpbase
  rst : t.rst = s.rst
  host : t.host = s.host
  hostData : t.hostData = s.hostData

theorem GoesOn.refl (s : State) : GoesOn s s := ⟨by constructor <;> rfl, rfl, rfl, rfl, rfl, rfl, rfl⟩

theorem GoesOn.trans {s t u : State} (h : GoesOn s t) (h' : GoesOn t u) : GoesOn s u where
  inst := h'.inst.trans h.inst
  phase := h'.phase.trans h.phase
  status := h'.status.trans h.status
  latches := h'.latches.trans h.latches
  resetInput := h'.resetInput.trans h.resetInput
  bitmap := h'.bitmap.trans h.bitmap
  touched := h'.touched.trans h.touched
  origin := h'.origin.trans h.origin
  bmpsize := h'.bmpsize.trans h.bmpsize
  bmpbase := h'.bmpbase.trans h.bmpbase
  rst := h'.rst.trans h.rst
  host := h'.host.trans h.host
  hostData := h'.hostData.trans h.hostData

theorem State.enterSubsequence_goesOn (c : CmdName) (s : State) : GoesOn s (s.enterSubsequence c) :=
  ⟨by constructor <;> simp, by simp, by simp, by simp, by simp, by simp, by simp⟩

theorem State.sent_goesOn (c : CmdName) (s : State) : GoesOn s (s.sent c) :=
  ⟨by constructor <;> rfl, rfl, rfl, rfl, rfl, rfl, rfl⟩

theorem GoesOn.params {s t : State} (h : GoesOn s t) : t.params = s.params := congrArg BlockInstance.params h.inst

theorem GoesOn.opWindow_eq {s t : State} (h : GoesOn s t) :
    opWindow t.params t.latches = opWindow s.params s.latches := by
  rw [h.params, h.latches]

section
variable {s : State} {todo : List MicroStep} {n : Nat} {rest : List Resp}

/-- A step has been performed that is not the op's last: `advance` moves `sp` alone. `x` is the state in which its event
has been appended. -/
theorem OpAt.advance {x : State} {l : List MicroStep} {oks : Nat} {rest' : List Resp} (h : OpAt s l oks rest')
    (hon : GoesOn s x) (htodo : s.steps.drop (x.sp + 1) = todo) (hmore : todo ≠ []) (htimer : x.timer = none)
    (hscript : x.busScript = List.replicate n .ok ++ rest) :
    x.advance = { x with sp := x.sp + 1 } ∧ OpAt x.advance todo n rest ∧ GoesOn s x.advance := by
  rw [← hon.steps] at htodo
  rw [State.advance_of_todo (by rwa [htodo])]
  refine ⟨rfl, ⟨⟨?_, ?_, ?_⟩, htodo, htimer, hscript⟩, { hon with }⟩
  · exact hon.phase.trans h.running
  · exact hon.resetInput.trans h.released
  · exact hon.host.trans h.quiet

/-- A transaction that is not the op's last, with what opens its sub-sequence (R86, R160, R163). -/
theorem OpAt.sends {c : CmdName} (h : OpAt s (transaction c ++ todo) (payloadLength c + 1 + n) rest)
    (hmore : todo ≠ []) :
    let u := (s.enterSubsequence c).sent c
    Performs s (sentEvents s.params c (payloadOf c (s.enterSubsequence c))) u ∧ OpAt u todo n rest ∧ GoesOn s u := by
  have hscript : s.busScript = List.replicate (payloadLength c + 1) .ok ++ (List.replicate n .ok ++ rest) := by
    rw [h.script, List.replicate_add, List.append_assoc]
  have htodo : s.steps.drop (s.sp + payloadLength c + 1) = todo :=
    State.todo_after (n := payloadLength c + 1) h.todo (by simp [Machine.transaction])
  have hon := (s.enterSubsequence_goesOn c).trans (State.sent_goesOn c _)
  obtain ⟨heq, hat, hon⟩ := h.advance (n := n) (rest := rest)
    (x := { (s.enterSubsequence c).sent c with sp := s.sp + payloadLength c }) { hon with } htodo hmore
    (by simpa [State.sent] using h.timer) (by simp [State.sent, hscript])
  have hrun := h.toOnTurn.performs_transaction h.todo hscript
  have hsent : { (s.enterSubsequence c).sent c with sp := s.sp + payloadLength c + 1 }
      = (s.enterSubsequence c).sent c := by simp [State.sent]
  rw [heq.trans hsent] at hrun hat hon
  exact ⟨hrun, hat, hon⟩

/-- A WaitIdle that is not the op's last step, in either mode (R210, R211). -/
theorem OpAt.waitIdle {k : Nat} (h : OpAt s (waitIdleSteps s.params ++ todo) n rest) (hmore : todo ≠ [])
    (hbusy : BusyAfter s k) :
    ∃ u, Performs s (waitIdleEvents s.params k) u ∧ OpAt u todo n rest ∧ GoesOn s u := by
  cases hmode : s.params.busyWaitMode with
  | referenceNoop =>
    rw [waitIdleSteps_of_noop hmode] at h
    rw [waitIdleEvents_of_noop hmode]
    exact ⟨s, .refl s, h, .refl s⟩
  | poll =>
    rw [waitIdleSteps_of_poll hmode] at h
    rw [waitIdleEvents_of_poll hmode]
    obtain ⟨bs, hbs⟩ := hbusy hmode
    have hrun := h.toOnTurn.performs_poll (State.step_of_todo h.todo) h.timer hbs
    have hon : GoesOn s { s with trace := s.trace ++ highEvents k ++ [.busy .low], busyScript := bs } :=
      ⟨by constructor <;> rfl, rfl, rfl, rfl, rfl, rfl, rfl⟩
    obtain ⟨-, hat, hon⟩ := h.advance hon (State.todo_after (l := [.poll]) h.todo rfl) hmore h.timer h.script
    exact ⟨_, hrun, hat, hon⟩

/-- SetMemoryWindow: the op's window (R160, R190). -/
theorem OpAt.setWindow (h : OpAt s (setMemoryWindowSteps ++ todo) (8 + n) rest) (hmore : todo ≠ []) :
    ∃ u, Performs s (windowEvents s.params (opWindow s.params s.latches)) u ∧ OpAt u todo n rest
      ∧ GoesOn s u ∧ u.busyScript = s.busyScript := by
  rw [setMemoryWindowSteps, List.append_assoc, show 8 + n = 3 + (5 + n) by omega] at h
  obtain ⟨hrunX, hX, honX⟩ := h.sends (by simp [transaction])
  obtain ⟨hrunY, hY, honY⟩ := hX.sends (by simp [hmore])
  exact ⟨_, hrunX.trans hrunY, hY, honX.trans honY, rfl⟩

/-- SetAddressPointer: the start of the op's window, and the WaitIdle (R163, R168). -/
theorem OpAt.setPointer {k : Nat} (h : OpAt s (setAddressPointerSteps s.params ++ todo) (5 + n) rest)
    (hmore : todo ≠ []) (hbusy : BusyAfter s k) :
    let w := opWindow s.params s.latches
    ∃ u, Performs s (pointerEvents s.params w.xs w.ys k) u ∧ OpAt u todo n rest ∧ GoesOn s u := by
  simp only [setAddressPointerSteps, List.append_assoc, show 5 + n = 2 + (3 + n) by omega] at h
  obtain ⟨hrunX, hX, honX⟩ := h.sends (by simp [transaction])
  obtain ⟨hrunY, hY, honY⟩ := hX.sends (by simp [hmore])
  obtain ⟨u, hrun, hu, hon⟩ := hY.waitIdle hmore hbusy
  exact ⟨u, (hrunX.trans hrunY).trans hrun, hu, (honX.trans honY).trans hon⟩

/-- What precedes a stream: the window, the pointer at its start with its WaitIdle, and WRITE_RAM, which opens the
stream (R168, R181). -/
theorem OpAt.preamble {k : Nat} (h : OpAt s (streamPreambleSteps s.params ++ todo) (14 + n) rest)
    (hmore : todo ≠ []) (hbusy : BusyAfter s k) :
    ∃ u, Performs s (preambleEvents s.params (opWindow s.params s.latches) k) u ∧ OpAt u todo n rest
      ∧ GoesOn s u ∧ u.stream = openStream s.params s.latches := by
  simp only [streamPreambleSteps, List.append_assoc, show 14 + n = 8 + (5 + (1 + n)) by omega] at h
  obtain ⟨u, hrunW, hu, honW, hbusyW⟩ := h.setWindow (by simp [transaction])
  rw [← honW.params] at hu
  obtain ⟨v, hrunP, hv, honP⟩ := hu.setPointer (k := k) (by simp [transaction])
    (by rwa [BusyAfter, honW.params, hbusyW])
  rw [honW.opWindow_eq, honW.params] at hrunP
  have hon := honW.trans honP
  obtain ⟨hrunR, hR, honR⟩ := hv.sends hmore
  rw [hon.params] at hrunR
  refine ⟨_, (hrunW.trans hrunP).trans hrunR, hR, hon.trans honR, ?_⟩
  rw [← hon.params, ← hon.latches]
  rfl
end

/-! ## From acceptance to the end of an op -/

/-- Acceptance puts an op at the head of its step list (R232). -/
theorem OpAt.of_accepted {s : State} {op : OpCode} {mode : LutMode} {fill : Byte} {n : Nat} {rest : List Resp}
    (hi : Inv s) (hacc : AcceptsOp s op) (hquiet : s.host = []) (hscript : s.busScript = List.replicate n .ok ++ rest) :
    OpAt ((s.clearRej.latch op mode fill).accept op) (stepList s.params op) n rest :=
  ⟨⟨rfl, hacc.released, hquiet⟩, rfl, (hi.atRest hacc.not_running).timer, hscript⟩

section
variable {s x : State} {op : OpCode} {mode : LutMode} {fill : Byte}
  (h : GoesOn ((s.clearRej.latch op mode fill).accept op) x)
include h

/-- An op that has gone on to its end leaves the host's side as it was before the `OP` write (R31, R55). -/
theorem GoesOn.complete_hostSideKept : HostSideKept s x.complete := by
  obtain ⟨⟨hinst, -, -, -, hreset, hbitmap, -⟩, horigin, hsize, hbase, -, hhost, hdata⟩ := h
  constructor <;> simp [*]

/-- An op that has gone on to its end ends OK, with the flags it writes itself (R232, R233). -/
theorem GoesOn.complete_endedOk :
    EndedOk x.complete ((s.status.accept op).opDone (argumentsOf s op mode fill)) := by
  obtain ⟨⟨-, hphase, hstatus, hlatches, -, -, -⟩, -⟩ := h
  constructor
  case phase => simp [hphase, phaseAfterEnd]
  case sp => rfl
  case status =>
    rw [State.complete_status, hstatus, hlatches]
    cases op <;> simp [Status.ended, Status.accept, Status.opDone, Status.setRej, argumentsOf]

end

end Sys2Proof.Machine
end

section
/-! PROOFS. The packed stream of a DRAW (R113, R191), and DRAW from its acceptance to its end (R190, R233). -/

namespace Sys2Proof.Machine

/-! ## The packed stream -/

/-- The counter after byte `j` of a window's stream is byte `j + 1`'s (R191). -/
theorem nextPack_of_more {nb nr j : Nat} (hnb : 0 < nb) (hj : j + 1 < nb * nr) :
    nextPack nb nr (j / nb) (j % nb) = some (.pack ((j + 1) / nb) ((j + 1) % nb)) := by
  have hrow := Nat.div_lt_of_lt_mul hj
  unfold nextPack
  obtain ⟨hlast, hdiv, hmod⟩ | ⟨hlt, hdiv, hmod⟩ := div_mod_succ hnb j <;> rw [hdiv, hmod]
  · rw [if_neg (by omega), if_pos (by omega)]
  · rw [if_pos hlt]

/-- The last byte of a window's stream leaves no counter (R191). -/
theorem nextPack_of_last {nb nr j : Nat} (hnb : 0 < nb) (hj : j + 1 = nb * nr) :
    nextPack nb nr (j / nb) (j % nb) = none := by
  have hend : (j + 1) / nb = nr ∧ (j + 1) % nb = 0 := (Nat.div_mod_unique hnb).mpr ⟨by omega, hnb⟩
  unfold nextPack
  obtain ⟨hlast, hdiv, -⟩ | ⟨-, -, hmod⟩ := div_mod_succ hnb j
  · rw [if_neg (by omega), if_neg (by omega)]
  · omega

/-- Byte `j` of the running DRAW's stream (R191). -/
def State.byteAt (j : Nat) (s : State) : Byte :=
  s.packByte (j / (drawRect s.params s.latches).nb) (j % (drawRect s.params s.latches).nb)

/-- Byte `j` of the running DRAW's stream is the next (R33). -/
def State.AtByte (j : Nat) (s : State) : Prop :=
  s.stream = some (.pack (j / (drawRect s.params s.latches).nb) (j % (drawRect s.params s.latches).nb))

/-- The packed bytes of a window from byte `j` on, with the host quiet and no written byte recorded: the stream's byte
`j` is the first of them (R60, R64, R113). -/
theorem packedBytes_drop {s : State} (hquiet : s.host = []) (htouched : s.touched = []) {j : Nat}
    (hj : j < (drawRect s.params s.latches).nb * (drawRect s.params s.latches).nr) :
    (packedBytes s.params s.latches s.bitmap).drop j
      = s.byteAt j :: (packedBytes s.params s.latches s.bitmap).drop (j + 1) := by
  have hpixel : ∀ r, s.pixel r = fun i => s.bitmap.read (pixAddr s.latches i r) := fun r => funext fun i =>
    State.pixel_of_not_raced (by simp [State.raced, hquiet, htouched])
  rw [List.drop_eq_getElem_cons (by rwa [packedBytes_length]), State.byteAt, State.packByte, hpixel]
  simp [packedBytes]

/-- What follows an `ok` for byte (r, g): the next byte's counter, or after the last byte the step has been performed
(R191). -/
def State.countPacked (r g : Nat) (t : State) : State :=
  match nextPack (drawRect t.params t.latches).nb (drawRect t.params t.latches).nr r g with
  | some c => { t with stream := some c }
  | none => State.advance { t with stream := none }

theorem State.countPacked_of_some {r g : Nat} {t : State} {c : StreamCounter}
    (h : nextPack (drawRect t.params t.latches).nb (drawRect t.params t.latches).nr r g = some c) :
    t.countPacked r g = { t with stream := some c } := by
  rw [State.countPacked, h]

theorem State.countPacked_of_none {r g : Nat} {t : State}
    (h : nextPack (drawRect t.params t.latches).nb (drawRect t.params t.latches).nr r g = none) :
    t.countPacked r g = State.advance { t with stream := none } := by
  rw [State.countPacked, h]

/-- The state in which byte `v` of a DRAW's stream has been sent and its counter not yet moved. -/
def State.packed (v : Byte) (rs : List Resp) (s : State) : State :=
  { s with trace := s.trace ++ [.data v .ok], busScript := rs, draws := s.draws + 8 }

theorem State.packed_goesOn (v : Byte) (rs : List Resp) (s : State) : GoesOn s (s.packed v rs) :=
  ⟨by constructor <;> rfl, rfl, rfl, rfl, rfl, rfl, rfl⟩

/-- One byte of a DRAW's stream (R191). -/
theorem OnTurn.step_packByte {s : State} {r g : Nat} {rs : List Resp} (h : OnTurn s)
    (hm : s.steps[s.sp]? = some .packByte) (hstream : s.stream = some (.pack r g)) (hmem : s.packInMemory r g = true)
    (hscript : s.busScript = .ok :: rs) : step s = .next ((s.packed (s.packByte r g) rs).countPacked r g) := by
  rw [h.step_eq hm, runMicroStep, packByteStep]
  split
  next r' g' hs =>
    obtain ⟨rfl, rfl⟩ : r = r' ∧ g = g' := by simpa [hstream] using hs
    rw [if_pos hmem]
    exact congrArg Host.Outcome.next (State.busEvent_of_script (s := { s with draws := s.draws + 8 }) hscript _ _)
  next hs => exact absurd hstream (hs r g)

section
variable {s : State} {n j : Nat} {rest : List Resp} (h : OpAt s [.packByte] (n + 1) rest)
  (hv : drawArgsValid s.params s.latches = true) (hat : s.AtByte j)
include h hv hat

/-- A byte of the stream, in any place. -/
theorem OpAt.step_byte (hj : j < (drawRect s.params s.latches).nb * (drawRect s.params s.latches).nr) :
    step s = .next ((s.packed (s.byteAt j) (List.replicate n .ok ++ rest)).countPacked
      (j / (drawRect s.params s.latches).nb) (j % (drawRect s.params s.latches).nb)) :=
  h.toOnTurn.step_packByte (State.step_of_todo h.todo) hat
    (State.packInMemory_of_valid hv (Nat.div_lt_of_lt_mul hj)) (by rw [h.script, List.replicate_succ, List.cons_append])

/-- A byte of the stream that others follow (R191). -/
theorem OpAt.step_byte_of_more (hj : j + 1 < (drawRect s.params s.latches).nb * (drawRect s.params s.latches).nr) :
    ∃ t, step s = .next t ∧ t.trace = s.trace ++ [.data (s.byteAt j) .ok] ∧ OpAt t [.packByte] n rest ∧ t.AtByte (j + 1)
      ∧ GoesOn s t := by
  have hnext := nextPack_of_more (drawRect s.params s.latches).nb_pos hj
  have hstep := h.step_byte hv hat (by omega)
  rw [State.countPacked_of_some (t := s.packed _ _) hnext] at hstep
  have hon := State.packed_goesOn (s.byteAt j) (List.replicate n .ok ++ rest) s
  exact ⟨_, hstep, rfl, ⟨⟨h.running, h.released, h.quiet⟩, h.todo, h.timer, rfl⟩, rfl, { hon with }⟩

/-- The last byte of the stream ends the op (R191, R233). -/
theorem OpAt.step_byte_of_last (hj : j + 1 = (drawRect s.params s.latches).nb * (drawRect s.params s.latches).nr) :
    ∃ x, step s = .next x.complete ∧ x.trace = s.trace ++ [.data (s.byteAt j) .ok]
      ∧ x.busScript = List.replicate n .ok ++ rest ∧ GoesOn s x := by
  have hnext := nextPack_of_last (drawRect s.params s.latches).nb_pos hj
  have hlast : s.steps.drop (s.sp + 1) = [] := State.todo_after (l := [.packByte]) h.todo rfl
  have hstep := h.step_byte hv hat (by omega)
  rw [State.countPacked_of_none (t := s.packed _ _) hnext] at hstep
  have hon := State.packed_goesOn (s.byteAt j) (List.replicate n .ok ++ rest) s
  exact ⟨_, hstep.trans (congrArg Host.Outcome.next (State.advance_of_last (List.drop_eq_nil_iff.mp hlast))), rfl, rfl,
    { hon with }⟩

end

/-- The rest of a DRAW's stream, from byte `j` to its window's last, after which the op is over. With no written byte
recorded they are the packed bytes of memory (R64, R191, R233). -/
theorem OpAt.performs_stream {rest : List Resp} :
    ∀ {n j : Nat} {s : State}, OpAt s [.packByte] (n + 1) rest → drawArgsValid s.params s.latches = true → s.AtByte j →
      j + (n + 1) = (drawRect s.params s.latches).nb * (drawRect s.params s.latches).nr →
      ∃ bytes x, Performs s (streamEvents bytes) x.complete ∧ bytes.length = n + 1
        ∧ (s.touched = [] → bytes = (packedBytes s.params s.latches s.bitmap).drop j)
        ∧ GoesOn s x ∧ x.busScript = rest := by
  intro n
  induction n with
  | zero =>
    intro j s h hv hat hj
    obtain ⟨x, hstep, htrace, hscript, hon⟩ := h.step_byte_of_last hv hat hj
    refine ⟨[s.byteAt j], x, .of_step hstep htrace, rfl, fun htouched => ?_, hon, hscript⟩
    rw [packedBytes_drop h.quiet htouched (by omega), List.drop_eq_nil_of_le (by rw [packedBytes_length]; omega)]
  | succ n ih =>
    intro j s h hv hat hj
    obtain ⟨t, hstep, htrace, ht, hat', hon⟩ := h.step_byte_of_more hv hat (by omega)
    have hparams := hon.params
    have hlatches := hon.latches
    rw [← hparams, ← hlatches] at hv hj
    obtain ⟨bytes, x, hrun, hlen, hbytes, hon', hscript⟩ := ih ht hv hat' (by omega)
    refine ⟨s.byteAt j :: bytes, x, (Performs.of_step hstep htrace).trans hrun, by rw [List.length_cons, hlen],
      fun htouched => ?_, hon.trans hon', hscript⟩
    rw [hparams, hlatches] at hj
    rw [packedBytes_drop h.quiet htouched (by omega), hbytes (hon.touched.trans htouched), hparams, hlatches,
      hon.bitmap]

/-! ## The whole op -/

/-- An op starts with no written byte recorded on an ordered platform, or where the host has written none (R60, log
entry 9). -/
theorem touchedAtAccept_eq_nil {p : Params} {l : List Nat} (h : p.platformOrdering = .ordered ∨ l = []) :
    touchedAtAccept p l = [] := by
  obtain hord | rfl := h
  · rw [touchedAtAccept, hord]
  · unfold touchedAtAccept; split <;> rfl

/-- Settles O33: acceptance, the preamble, and the whole stream of the window. -/
theorem drawRunsToItsEnd : Obligations.DrawRunsToItsEnd := by
  intro s k rest l w hi hacc hquiet hscript hbusy
  obtain ⟨n, hn⟩ := Nat.exists_eq_succ_of_ne_zero (Nat.mul_pos w.nb_pos w.nr_pos).ne'
  have hat := OpAt.of_accepted (mode := .fullUpdate) (fill := 0#8) hi hacc hquiet hscript
  obtain ⟨u, hpre, hu, hon, hstream⟩ := OpAt.preamble hat (List.cons_ne_nil _ _) hbusy
  have hparams : u.params = s.params := hon.params
  have hlatches : u.latches = l := hon.latches
  obtain ⟨bytes, x, hrun, hlen, hbytes, hon', hrest⟩ := OpAt.performs_stream (j := 0) (n := n) (hn ▸ hu)
    (by rw [hparams, hlatches]; exact (drawArgsValid_latch _ _ _ s).mpr (hacc.args rfl))
    (by rw [State.AtByte, Nat.zero_div, Nat.zero_mod]; exact hstream)
    (by rw [hparams, hlatches, Nat.zero_add]; exact hn.symm)
  have hall := hpre.trans hrun
  have hend := hon.trans hon'
  obtain ⟨hphase, hsp, hstatus⟩ := hend.complete_endedOk
  refine ⟨_, x.complete, bytes, exec_of_accepts rfl hacc, hall.run, ?trace, hlen.trans hn.symm, fun hnone => ?packed,
    ⟨hphase, hsp, hstatus⟩, hend.rst, hrest, hend.complete_hostSideKept⟩
  case trace => rw [List.append_assoc]; exact hall.trace
  case packed =>
    rw [hbytes (hon.touched.trans (touchedAtAccept_eq_nil hnone)), List.drop_zero, hparams, hlatches, hon.bitmap]
    rfl

end Sys2Proof.Machine
end

section
/-! PROOFS. The commands of the init sequence send their bytes (R132-R134, R136-R139). -/

namespace Sys2Proof.Machine

/-- A command sends the bytes it computes from the state it runs in, in whichever op's list it stands (R86). -/
theorem sendsTransaction_of_payloadOf {c : CmdName} {bytes : State → List Byte}
    (hbytes : ∀ s, payloadOf c s = bytes s) : SendsTransaction c bytes := by
  intro s rest tail hrel hrun hquiet htodo hscript
  obtain ⟨t, hexec, htrace, hsent⟩ := OnTurn.exec_transaction ⟨hrun, hrel, hquiet⟩ htodo hscript
  have hlen : (streamEvents (payloadOf c s)).length = payloadLength c := by
    rw [streamEvents, List.length_map, payloadOf_length]
  have hdrop : s.busScript.drop (payloadLength c + 1) = rest := by simp [hscript]
  refine ⟨t, _, hexec, htrace, hlen ▸ hsent.run, ?trace, ?script, ?busy, ?touched, ?rst, ?hostSide,
    fun hmore => ?goesOn⟩
  case trace => simp [State.sent, hbytes]
  case script => simp [State.sent, hdrop]
  case busy => simp [State.sent]
  case touched => simp [State.sent]
  case rst => simp [State.sent]
  case hostSide => constructor <;> simp [State.sent]
  case goesOn =>
    have hrest : s.steps.drop (s.sp + payloadLength c + 1) = tail :=
      State.todo_after (n := payloadLength c + 1) htodo (by simp [transaction])
    rw [State.advance_of_todo (s := { s.sent c with sp := s.sp + payloadLength c }) (hrest ▸ hmore)]
    rw [State.sent, hbytes, hdrop]
    rfl

/-- Settles O23: each payload is a constant of R9. -/
theorem initCommandsSendTheirConstants : Obligations.InitCommandsSendTheirConstants :=
  ⟨sendsTransaction_of_payloadOf fun _ => rfl, sendsTransaction_of_payloadOf fun _ => rfl,
    sendsTransaction_of_payloadOf fun _ => rfl, sendsTransaction_of_payloadOf fun _ => rfl,
    sendsTransaction_of_payloadOf fun _ => rfl⟩

/-- Settles O24: PH - 1 is the number of the panel's last row. -/
theorem outputControlAndLutSendTheirBytes : Obligations.OutputControlAndLutSendTheirBytes := by
  refine ⟨sendsTransaction_of_payloadOf fun _ => rfl, fun i => ?lastRow, sendsTransaction_of_payloadOf fun _ => rfl⟩
  case lastRow =>
    obtain ⟨-, -, -, hheight, -⟩ := panelSize i
    exact leValue_row (i := i) (by omega)

end Sys2Proof.Machine
end

section
/-! PROOFS. INIT and SETLUT from acceptance to the end, with the host quiet and every response `ok` (R130, R131, R135,
R136, R141). A stale timer of the state they start from is never read, as neither op polls. -/

namespace Sys2Proof.Machine

/-! ## The reset pulse -/

section
variable {s : State} {tail : List MicroStep} (h : OnTurn s) (hmore : tail ≠ [])
include h hmore

/-- A pin event that is not the op's last (R131). -/
theorem OnTurn.step_setPin {lvl : Level} (htodo : s.steps.drop s.sp = .setPin lvl :: tail) :
    step s = .next { s with sp := s.sp + 1, trace := s.trace ++ [.pin lvl], rst := lvl } := by
  have hrest : s.steps.drop (s.sp + 1) = tail := State.todo_after (l := [.setPin lvl]) htodo rfl
  rw [h.step_eq (State.step_of_todo htodo), runMicroStep, State.setPinStep,
    State.advance_of_todo (s := { s.emit (.pin lvl) with rst := lvl }) (hrest ▸ hmore)]
  rfl

/-- A wait of the reset pulse, which is not the op's last step (R131). -/
theorem OnTurn.step_delay {ms : Nat} (htodo : s.steps.drop s.sp = .delay ms :: tail) :
    step s = .next { s with sp := s.sp + 1, trace := s.trace ++ [.wait ms] } := by
  have hrest : s.steps.drop (s.sp + 1) = tail := State.todo_after (l := [.delay ms]) htodo rfl
  rw [h.step_eq (State.step_of_todo htodo), runMicroStep, State.delayStep,
    State.advance_of_todo (s := s.emit (.wait ms)) (hrest ▸ hmore)]
  rfl

end

/-- The state after PhysicalReset: RST is High, whatever it was (R131). -/
def State.pulsed (s : State) : State :=
  { s with sp := s.sp + 4, trace := s.trace ++ physicalResetEvents s.params, rst := .high }

/-- PhysicalReset, which is not the end of the op (R131). -/
theorem OnTurn.performs_physicalReset {s : State} {tail : List MicroStep} (h : OnTurn s) (hmore : tail ≠ [])
    (htodo : s.steps.drop s.sp = physicalResetSteps s.params ++ tail) :
    Performs s (physicalResetEvents s.params) s.pulsed := by
  have hlow := h.step_setPin (List.cons_ne_nil _ _) htodo
  have hwaitLow := OnTurn.step_delay ⟨h.running, h.released, h.quiet⟩ (List.cons_ne_nil _ _)
    (s := { s with sp := s.sp + 1, trace := s.trace ++ [.pin .low], rst := .low })
    (State.todo_after (l := [_]) htodo rfl)
  have hhigh := OnTurn.step_setPin ⟨h.running, h.released, h.quiet⟩ (List.cons_ne_nil _ _)
    (s := { s with
      sp := s.sp + 2
      trace := s.trace ++ [.pin .low] ++ [.wait s.params.resetLowMs]
      rst := .low })
    (State.todo_after (l := [_, _]) htodo rfl)
  have hwaitHigh := OnTurn.step_delay ⟨h.running, h.released, h.quiet⟩ hmore
    (s := { s with
      sp := s.sp + 3
      trace := s.trace ++ [.pin .low] ++ [.wait s.params.resetLowMs] ++ [.pin .high]
      rst := .high })
    (State.todo_after (l := [_, _, _]) htodo rfl)
  have hpulse := (Performs.of_step hlow rfl).trans ((Performs.of_step hwaitLow rfl).trans
    ((Performs.of_step hhigh rfl).trans (.of_step hwaitHigh rfl)))
  simpa [State.pulsed, physicalResetEvents] using hpulse

/-! ## Transactions one after the other -/

/-- A transaction, up to the state `x` in which its last event has been appended; the op may then be at its end (R86,
R233). -/
theorem OnTurn.performs_transaction_advance {s : State} {c : CmdName} {bytes : List Byte} {tail : List MicroStep}
    {rest : List Resp} (h : OnTurn s) (htodo : s.steps.drop s.sp = transaction c ++ tail)
    (hbytes : payloadOf c (s.enterSubsequence c) = bytes)
    (hscript : s.busScript = List.replicate (transaction c).length .ok ++ rest) :
    ∃ x, Performs s (sentEvents s.params c bytes) x.advance ∧ GoesOn s x ∧ s.steps.drop (x.sp + 1) = tail
      ∧ x.busScript = rest := by
  subst hbytes
  have hlen : (transaction c).length = payloadLength c + 1 := by simp [transaction]
  rw [hlen] at hscript
  have hon := (s.enterSubsequence_goesOn c).trans (State.sent_goesOn c _)
  exact ⟨_, h.performs_transaction htodo hscript, { hon with }, State.todo_after htodo hlen,
    by simp [State.sent, hscript]⟩

/-- The transactions of an op's last commands `c :: cs`, when their bytes are the same in every state that the op goes
on to; they end it OK (R233). -/
theorem OnTurn.performs_last_transactions {bytes : CmdName → List Byte} {rest : List Resp} {cs : List CmdName} :
    ∀ {c : CmdName} {s : State}, OnTurn s → s.steps.drop s.sp = (c :: cs).flatMap transaction →
      (∀ d ∈ c :: cs, ∀ t, GoesOn s t → payloadOf d (t.enterSubsequence d) = bytes d) →
      s.busScript = List.replicate ((c :: cs).flatMap transaction).length .ok ++ rest →
      ∃ x, Performs s ((c :: cs).flatMap fun d => sentEvents s.params d (bytes d)) x.complete ∧ GoesOn s x
        ∧ x.busScript = rest := by
  induction cs with
  | nil =>
    intro c s h htodo hbytes hscript
    rw [List.flatMap_singleton] at hscript
    obtain ⟨x, hrun, hon, hend, hrest⟩ :=
      h.performs_transaction_advance htodo (hbytes c List.mem_cons_self s (.refl s)) hscript
    rw [State.advance_of_last (by rw [hon.steps]; exact List.drop_eq_nil_iff.mp hend)] at hrun
    exact ⟨x, by rwa [List.flatMap_singleton], hon, hrest⟩
  | cons d ds ih =>
    intro c s h htodo hbytes hscript
    rw [List.flatMap_cons, List.length_append, List.replicate_add, List.append_assoc] at hscript
    obtain ⟨x, hfirst, hon, htodo', hscript'⟩ :=
      h.performs_transaction_advance htodo (hbytes c List.mem_cons_self s (.refl s)) hscript
    rw [← hon.steps] at htodo'
    rw [State.advance_of_todo (by rw [htodo']; simp [transaction])] at hfirst
    have hon' : GoesOn s { x with sp := x.sp + 1 } := { hon with }
    obtain ⟨y, hrest, hony, hscripty⟩ := ih (c := d) (s := { x with sp := x.sp + 1 })
      ⟨hon.phase.trans h.running, hon.resetInput.trans h.released, hon.host.trans h.quiet⟩ htodo'
      (fun e he t ht => hbytes e (List.mem_cons_of_mem _ he) t (hon'.trans ht)) hscript'
    rw [hon'.params] at hrest
    exact ⟨y, hfirst.trans hrest, hon'.trans hony, hscripty⟩

/-! ## SETLUT and INIT -/

/-- The commands of INIT after the reset pulse, in order (R130). -/
def initCommands : List CmdName :=
  [.driverOutputControl, .boosterSoftStartControl, .writeVcomRegister, .setDummyLinePeriod, .setGateTime,
    .dataEntryModeSetting, .writeLutRegister]

/-- A command of INIT sends bytes that no event of the op changes: they depend on the instance and the latched mode
only (R132-R139). -/
theorem GoesOn.payloadOf_initCommand {s t : State} {c : CmdName} (h : GoesOn s t) (hc : c ∈ initCommands) :
    payloadOf c (t.enterSubsequence c) = payloadOf c s := by
  have hparams := h.params
  have hlatches := h.latches
  simp only [initCommands, List.mem_cons, List.not_mem_nil, or_false] at hc
  obtain rfl | rfl | rfl | rfl | rfl | rfl | rfl := hc <;>
    simp [payloadOf, State.enterSubsequence, hparams, hlatches]

/-- Acceptance leaves the op on its turn (R232). -/
theorem OnTurn.of_accepted {s : State} {op : OpCode} {mode : LutMode} {fill : Byte} (hacc : AcceptsOp s op)
    (hquiet : s.host = []) : OnTurn ((s.clearRej.latch op mode fill).accept op) :=
  ⟨rfl, hacc.released, hquiet⟩

theorem selectLutEvents_length (i : BlockInstance) (m : LutMode) : (selectLutEvents i.params m).length = 31 := by
  simp [selectLutEvents, sentEvents, lutOf_length, Config.lutLen]

/-- Settles O31: acceptance, then one transaction, which is the whole op. -/
theorem setlutRunsToItsEnd : Obligations.SetlutRunsToItsEnd := by
  intro s m rest hacc hquiet hscript
  have hturn := OnTurn.of_accepted (mode := m) (fill := 0#8) hacc hquiet
  obtain ⟨x, hrun, hon, hrest⟩ := hturn.performs_last_transactions (cs := []) (bytes := fun _ => lutOf s.params m)
    (List.append_nil (transaction .writeLutRegister)).symm
    (fun d hd t ht => by
      obtain rfl := List.mem_singleton.mp hd
      exact ht.payloadOf_initCommand (by decide))
    hscript
  rw [List.flatMap_singleton] at hrun
  obtain ⟨hphase, hsp, hstatus⟩ := hon.complete_endedOk
  exact ⟨_, x.complete, exec_of_accepts rfl hacc, selectLutEvents_length s.inst m ▸ hrun.run, hrun.trace,
    ⟨hphase, hsp, hstatus⟩, hon.rst, hrest, hon.complete_hostSideKept⟩

/-- The events of INIT are those of its reset pulse and of its commands (R130). -/
theorem initEvents_eq (s : State) :
    initEvents s.params s.latches.mode = physicalResetEvents s.params
      ++ initCommands.flatMap fun c => sentEvents s.params c (payloadOf c s) := by
  simp [initEvents, selectLutEvents, initCommands, payloadOf, leBytes, Config.booster, Config.vcom, Config.dummyLine,
    Config.gateTime, Config.dataEntry]

theorem initEvents_length (i : BlockInstance) (m : LutMode) : (initEvents i.params m).length = 51 := by
  simp [initEvents, physicalResetEvents, selectLutEvents, sentEvents, lutOf_length, Config.lutLen]

/-- INIT from its first step to its end: the reset pulse, then its commands (R130, R233). -/
theorem OnTurn.performs_init {s : State} {rest : List Resp} (h : OnTurn s) (hop : s.latches.op = .init)
    (hsp : s.sp = 0) (hscript : s.busScript = List.replicate 47 .ok ++ rest) :
    ∃ x, Performs s (initEvents s.params s.latches.mode) x.complete ∧ GoesOn s.pulsed x ∧ x.busScript = rest := by
  have htodo : s.steps.drop s.sp = physicalResetSteps s.params ++ initCommands.flatMap transaction := by
    rw [State.steps, hop, hsp]; rfl
  have hpulse := h.performs_physicalReset (List.cons_ne_nil _ _) htodo
  have hturn : OnTurn s.pulsed := ⟨h.running, h.released, h.quiet⟩
  obtain ⟨x, hrun, hon, hrest⟩ := hturn.performs_last_transactions (c := .driverOutputControl)
    (cs := initCommands.tail) (bytes := fun c => payloadOf c s) (State.todo_after (n := 4) htodo rfl)
    (fun c hc t ht => ht.payloadOf_initCommand hc) hscript
  exact ⟨x, by rw [initEvents_eq]; exact hpulse.trans hrun, hon, hrest⟩

/-- After its reset pulse an accepted INIT has gone on like one that was accepted with RST High. -/
theorem State.pulsed_goesOn (m : LutMode) (s : State) :
    GoesOn ((State.clearRej { s with rst := .high }).latch .init m 0#8 |>.accept .init)
      ((s.clearRej.latch .init m 0#8).accept .init).pulsed :=
  ⟨by constructor <;> rfl, rfl, rfl, rfl, rfl, rfl, rfl⟩

/-- Settles O30: acceptance, then `OnTurn.performs_init`. -/
theorem initRunsToItsEnd : Obligations.InitRunsToItsEnd := by
  intro s m rest hacc hquiet hscript
  have hturn := OnTurn.of_accepted (mode := m) (fill := 0#8) hacc hquiet
  obtain ⟨x, hrun, hon, hrest⟩ := hturn.performs_init rfl rfl hscript
  have hend := (State.pulsed_goesOn m s).trans hon
  obtain ⟨hphase, hsp, hstatus⟩ := hend.complete_endedOk
  have hkept := hend.complete_hostSideKept
  exact ⟨_, x.complete, exec_of_accepts rfl hacc, initEvents_length s.inst m ▸ hrun.run, hrun.trace,
    ⟨hphase, hsp, hstatus⟩, hend.rst, hrest, { hkept with }⟩

/-- Settles O36: INIT's events and its flags at the end are those of O30, which name the instance and the mode only. -/
theorem initIsIdempotent : Obligations.InitIsIdempotent := by
  intro s s' m rest rest' hacc hacc' hinst hquiet hquiet' hscript hscript'
  obtain ⟨t, u, hexec, hrun, htrace, hend, -⟩ := initRunsToItsEnd s m rest hacc hquiet hscript
  obtain ⟨t', u', hexec', hrun', htrace', hend', -⟩ := initRunsToItsEnd s' m rest' hacc' hquiet' hscript'
  have hparams : s'.params = s.params := congrArg BlockInstance.params hinst.symm
  refine ⟨t, u, t', u', initEvents s.params m, hexec, hrun, hexec', hrun', htrace, hparams ▸ htrace', ?status⟩
  case status => rw [hend.status, hend'.status, hacc.no_fault, hacc'.no_fault]

end Sys2Proof.Machine
end

section
/-! PROOFS. A sleeping panel gets no command before a reset pulse (R131, R215, R217). -/

namespace Sys2Proof.Machine

/-- Outside RUN the block waits for an `OP` write (R43). -/
theorem blockStep_of_not_run {s t : State} (hp : s.phase ≠ .run) (h : blockStep s = .next t) : t = s := by
  obtain ⟨-, ht⟩ | ⟨hrun, -⟩ := blockStep_cases h
  · exact ht
  · exact absurd hrun hp

/-- Admission that starts an op has accepted it, INIT or a block that is ready (R231). -/
theorem State.admission_of_run {op : OpCode} {mode : LutMode} {fill : Byte} {s : State}
    (h : (s.admission op mode fill).phase = .run) :
    (op = .init ∨ s.status.ready = true) ∧ s.admission op mode fill = (s.latch op mode fill).accept op := by
  obtain ⟨-, e⟩ | ⟨-, -, -, e⟩ | ⟨-, -, -, -, e⟩ | ⟨-, hready, -, e⟩ := s.admission_cases op mode fill
  · simp [e, phaseAfterEnd_ne_run] at h
  · simp [e, phaseAfterEnd_ne_run] at h
  · simp [e, phaseAfterEnd_ne_run] at h
  · exact ⟨hready, e⟩

/-- An illegal word starts no op (R261). -/
theorem State.onIllegalWrite_not_run {s : State} (hp : s.phase ≠ .run) : s.onIllegalWrite.phase ≠ .run := by
  unfold State.onIllegalWrite
  rw [if_neg hp]
  split <;> simp [phaseAfterEnd_ne_run]

/-- No op runs while the panel sleeps: SLEEP sets ASLEEP at its end, and INIT clears it at its start (R130, R215). -/
theorem Inv.not_run_of_asleep {s : State} (hi : Inv s) (hs : s.status.asleep = true) : s.phase ≠ .run := by
  intro hrun
  have hawake : s.status.asleep = false := by
    by_cases hop : s.latches.op = .init
    · exact (hi.sequencer.init_running hrun hop).2
    · exact (hi.sequencer.other_running hrun hop).2
  rw [hs] at hawake; cases hawake

/-- A block held at its reset values has ASLEEP 0 (R42, R290). -/
theorem Inv.released_of_asleep {s : State} (hi : Inv s) (hs : s.status.asleep = true) : s.resetInput = false := by
  by_contra hr
  rw [← hi.reset (by simpa using hr)] at hs
  cases hs

/-- With ASLEEP 1 only INIT starts, at its first step (R131, R217). -/
theorem State.admission_run_of_asleep {op : OpCode} {mode : LutMode} {fill : Byte} {s : State}
    (hs : s.status.asleep = true) (h : (s.admission op mode fill).phase = .run) :
    let t := s.admission op mode fill
    t.latches.op = .init ∧ t.sp = 0 ∧ t.steps[t.sp]? = some (.setPin .low) := by
  obtain ⟨hready, e⟩ := State.admission_of_run h
  obtain rfl : op = .init := by simpa [Status.ready, hs] using hready
  rw [e]
  exact ⟨rfl, rfl, rfl⟩

/-- Settles O43: no op runs, so that only admission can start one. -/
theorem sleepingPanelGetsNoCommand : Obligations.SleepingPanelGetsNoCommand := by
  intro s t hi hs h
  have hp := hi.not_run_of_asleep hs
  have hrel := hi.released_of_asleep hs
  rw [step_of_released hrel] at h
  obtain ⟨-, hb⟩ | ⟨a, rest, hh, ha⟩ := releasedTurn_cases h
  · obtain rfl := blockStep_of_not_run hp hb
    exact ⟨.inl rfl, fun hrun => absurd hrun hp⟩
  · obtain ⟨-, hb⟩ | ⟨rfl, rfl⟩ | ⟨-, ⟨op, mode, fill, rfl⟩ | rfl⟩ | hsame :=
      hostAct_released (s := { s with host := rest }) hrel ha
    · obtain rfl := blockStep_of_not_run (s := { s with host := rest }) hp hb
      exact ⟨.inl rfl, fun hrun => absurd hrun hp⟩
    · exact ⟨.inr ⟨rest, hh⟩, nofun⟩
    · exact ⟨.inl (by simp), State.admission_run_of_asleep (s := State.clearRej _) hs⟩
    · exact ⟨.inl (by simp), fun hrun => absurd hrun (State.onIllegalWrite_not_run hp)⟩
    · exact ⟨.inl hsame.trace, fun hrun => absurd (hsame.phase.symm.trans hrun) hp⟩

end Sys2Proof.Machine
end

section
/-! PROOFS. The address unit: what its commands send (R161, R162, R164, R165), and the window of a DRAW in the panel
(R166, R171, R172). -/

namespace Sys2Proof.Machine

/-- Settles O25: the payloads by definition, and what they say of a pixel in the panel by `columnByte_toNat` and
`leValue_row`. -/
theorem addressCommandsSendTheirBytes : Obligations.AddressCommandsSendTheirBytes :=
  ⟨sendsTransaction_of_payloadOf fun _ => rfl, sendsTransaction_of_payloadOf fun _ => rfl,
    sendsTransaction_of_payloadOf fun _ => rfl, sendsTransaction_of_payloadOf fun _ => rfl,
    fun _ _ _ hx hy => ⟨columnByte_toNat hx, leValue_row hy⟩⟩

/-- A window in the panel has no more byte columns than a panel row (R10, R166). -/
theorem Window.InPanel.nb_le {i : BlockInstance} {w : Window} (hw : w.InPanel i.params) : w.nb ≤ rowBytes i.params := by
  have hedge := hw.byteColumn_xe_lt
  unfold Window.nb
  omega

/-- A window in the panel has no more rows than the panel (R166). -/
theorem Window.InPanel.nr_le {p : Params} {w : Window} (hw : w.InPanel p) : w.nr ≤ p.panelHeight := by
  have hedge := hw.ye_lt
  unfold Window.nr
  omega

/-- Settles O50 from `drawRect_inPanel`: a window is never empty, and `xs` is a column rounded down. -/
theorem drawWindowIsInsideThePanel : Obligations.DrawWindowIsInsideThePanel := by
  intro i l hv w
  have hw : w.InPanel i.params := drawRect_inPanel hv
  exact ⟨hw.xs_le_xe, hw.xe_lt, hw.ys_le_ye, hw.ye_lt, Nat.mul_mod_left _ _, w.nb_pos, hw.nb_le, w.nr_pos, hw.nr_le⟩

/-- Settles O51: rounding `x` down loses less than a byte column, and PW is a multiple of 8. -/
theorem rightEdgeIsTruncated : Obligations.RightEdgeIsTruncated := by
  intro i l _ hpast
  obtain ⟨hmod, hwidth, -, -, -⟩ := panelSize i
  simp only [drawRect, alignDown8]
  omega

end Sys2Proof.Machine
end

section
/-! PROOFS. The fill stream of a CLEAR (R182), and CLEAR from its acceptance to its end (R180, R233). -/

namespace Sys2Proof.Machine

/-- The state in which a byte of CLEAR's stream has been sent, and its counter is `c`. -/
def State.filled (c : Option StreamCounter) (rs : List Resp) (s : State) : State :=
  { s with trace := s.trace ++ [.data s.latches.fill .ok], busScript := rs, stream := c }

theorem State.filled_goesOn (c : Option StreamCounter) (rs : List Resp) (s : State) : GoesOn s (s.filled c rs) :=
  ⟨by constructor <;> rfl, rfl, rfl, rfl, rfl, rfl, rfl⟩

/-- A byte of CLEAR's stream: `n` are left, or the step has been performed (R182). -/
theorem OpAt.step_fillByte {s : State} {n : Nat} {rest : List Resp} (h : OpAt s [.fillByte] (n + 1) rest)
    (hstream : s.stream = some (.fill (n + 1))) :
    let rs := List.replicate n .ok ++ rest
    step s = .next (if n = 0 then State.advance (s.filled none rs) else s.filled (some (.fill n)) rs) := by
  rw [h.toOnTurn.step_eq (State.step_of_todo h.todo), runMicroStep, fillByteStep, hstream]
  refine congrArg Host.Outcome.next (State.busEvent_of_script ?_ _ _)
  rw [h.script, List.replicate_succ, List.cons_append]

/-- The rest of a CLEAR's stream, `n + 1` fill bytes, after which the op is over (R182, R233). -/
theorem OpAt.performs_fills {rest : List Resp} :
    ∀ {n : Nat} {s : State}, OpAt s [.fillByte] (n + 1) rest → s.stream = some (.fill (n + 1)) →
      ∃ x, Performs s (streamEvents (List.replicate (n + 1) s.latches.fill)) x.complete
        ∧ GoesOn s x ∧ x.busScript = rest := by
  intro n
  induction n with
  | zero =>
    intro s h hstream
    have hlast : s.steps.drop (s.sp + 1) = [] := State.todo_after (l := [.fillByte]) h.todo rfl
    have hend : State.advance (s.filled none rest) = State.complete (s.filled none rest) :=
      State.advance_of_last (List.drop_eq_nil_iff.mp hlast)
    exact ⟨_, .of_step ((h.step_fillByte hstream).trans (congrArg Host.Outcome.next hend)) rfl,
      s.filled_goesOn none rest, rfl⟩
  | succ n ih =>
    intro s h hstream
    obtain ⟨x, hrun, hon, hscript⟩ :=
      ih (s := s.filled (some (.fill (n + 1))) (List.replicate (n + 1) .ok ++ rest))
        ⟨⟨h.running, h.released, h.quiet⟩, h.todo, h.timer, rfl⟩ rfl
    exact ⟨x, (Performs.of_step (e := .data s.latches.fill .ok) (h.step_fillByte hstream) rfl).trans hrun,
      (s.filled_goesOn _ _).trans hon, hscript⟩

/-- Settles O32: acceptance, the preamble for the full window, and FRAME_BYTES fill bytes. -/
theorem clearRunsToItsEnd : Obligations.ClearRunsToItsEnd := by
  intro s fill k rest hi hacc hquiet hscript hbusy
  obtain ⟨n, hn⟩ := Nat.exists_eq_succ_of_ne_zero (frameBytes_pos s.inst).ne'
  have hat := OpAt.of_accepted (mode := .fullUpdate) (fill := fill) hi hacc hquiet hscript
  obtain ⟨u, hpre, hu, hon, hstream⟩ := OpAt.preamble hat (List.cons_ne_nil _ _) hbusy
  have hfill : u.latches.fill = fill := congrArg Latches.fill hon.latches
  have hcount : u.stream = some (.fill (n + 1)) := hstream.trans (congrArg (some ∘ StreamCounter.fill) hn)
  obtain ⟨x, hrun, hon', hrest⟩ := OpAt.performs_fills (hn ▸ hu) hcount
  rw [hfill, ← Nat.succ_eq_add_one, ← hn] at hrun
  have hall : Performs _ (clearEvents s.params fill k) _ := hpre.trans hrun
  have hend := hon.trans hon'
  obtain ⟨hphase, hsp, hstatus⟩ := hend.complete_endedOk
  exact ⟨_, x.complete, exec_of_accepts rfl hacc, hall.run, hall.trace, ⟨hphase, hsp, hstatus⟩, hend.rst, hrest,
    hend.complete_hostSideKept⟩

end Sys2Proof.Machine
end

section
/-! PROOFS. What precedes a stream, in every run (R168): the events a running op may still append, as long as every
response is `ok`, are read off its step list, and each of its events is the next of them. -/

namespace Sys2Proof.Machine

/-! ## The events that step lists append -/

/-- What the events still to come are computed from: the instance, and the latches, data bytes and wait of the running
op. -/
def State.source (s : State) : State :=
  { State.reset with
    inst := s.inst
    latches := s.latches
    window := s.window
    pointer := s.pointer
    payload := s.payload
    timer := s.timer }

/-- The state with command `c` sent and its data bytes due, and what opens its sub-sequence assigned (R86, R160,
R163). -/
def State.opened (c : CmdName) (s : State) : State :=
  { s.enterSubsequence c with payload := payloadOf c (s.enterSubsequence c) }

/-- The state with the whole transaction of command `c` sent. -/
def State.closed (c : CmdName) (s : State) : State := { s.enterSubsequence c with payload := [] }

/-- The steps `l` append the events `es` from state `s`, when no response fails: a poll has any number of High readings,
after the wait that is pending (R210), and a stream any bytes. -/
def Appends : (l : List MicroStep) → (s : State) → (es : List Event) → Prop
  | [], _, es => es = []
  | .setPin lvl :: l, s, es => ∃ fs, es = .pin lvl :: fs ∧ Appends l s fs
  | .delay ms :: l, s, es => ∃ fs, es = .wait ms :: fs ∧ Appends l s fs
  | .bus c :: l, s, es => ∃ fs, es = .cmd (s.params.cmd.code c) .ok :: fs ∧ Appends l (s.opened c) fs
  | .dataByte :: l, s, es =>
    ∃ b bs fs, s.payload = b :: bs ∧ es = .data b .ok :: fs ∧ Appends l { s with payload := bs } fs
  | .poll :: l, s, es =>
    ∃ k fs, es = s.timer.toList.map .wait ++ highEvents k ++ .busy .low :: fs ∧ Appends l { s with timer := none } fs
  | .fillByte :: l, s, es => ∃ bytes fs, es = streamEvents bytes ++ fs ∧ Appends l s fs
  | .packByte :: l, s, es => ∃ bytes fs, es = streamEvents bytes ++ fs ∧ Appends l s fs

section
variable {l : List MicroStep} {s : State} {es : List Event}

/-- Data bytes that are due are sent in order (R86). -/
theorem Appends.split_dataBytes {bytes : List Byte} (hp : s.payload = bytes)
    (h : Appends (List.replicate bytes.length .dataByte ++ l) s es) :
    ∃ fs, es = streamEvents bytes ++ fs ∧ Appends l { s with payload := [] } fs := by
  induction bytes generalizing s es with
  | nil => exact ⟨es, rfl, by rwa [← hp]⟩
  | cons b bs ih =>
    obtain ⟨b', bs', fs, hp', rfl, h⟩ := h
    obtain ⟨rfl, rfl⟩ : b = b' ∧ bs = bs' := by simpa [hp] using hp'
    obtain ⟨gs, rfl, hrest⟩ := ih rfl h
    exact ⟨gs, rfl, hrest⟩

/-- A transaction is a command and the data bytes it computes (R86). -/
theorem Appends.split_transaction {c : CmdName} (h : Appends (transaction c ++ l) s es) :
    ∃ fs, es = sentEvents s.params c (payloadOf c (s.enterSubsequence c)) ++ fs
      ∧ Appends l (s.closed c) fs := by
  rw [transaction, ← payloadOf_length c (s.enterSubsequence c)] at h
  obtain ⟨fs, rfl, hdata⟩ := h
  obtain ⟨gs, rfl, hrest⟩ := Appends.split_dataBytes (s := s.opened c) rfl hdata
  exact ⟨gs, rfl, hrest⟩

/-- A WaitIdle with no wait pending, in either mode (R210, R211). -/
theorem Appends.split_waitIdle {p : Params} (htimer : s.timer = none) (h : Appends (waitIdleSteps p ++ l) s es) :
    ∃ k fs, es = waitIdleEvents p k ++ fs ∧ Appends l s fs := by
  cases hmode : p.busyWaitMode with
  | referenceNoop =>
    rw [waitIdleSteps_of_noop hmode] at h
    exact ⟨0, es, by rw [waitIdleEvents_of_noop hmode, List.nil_append], h⟩
  | poll =>
    rw [waitIdleSteps_of_poll hmode] at h
    obtain ⟨k, fs, rfl, h⟩ := h
    rw [← htimer] at h
    exact ⟨k, fs, by simp [waitIdleEvents_of_poll hmode, htimer], h⟩

/-- What precedes a stream (R160, R163, R168). -/
theorem Appends.split_preamble (htimer : s.timer = none) (h : Appends (streamPreambleSteps s.params ++ l) s es) :
    ∃ k fs u, es = preambleEvents s.params (opWindow s.params s.latches) k ++ fs ∧ Appends l u fs := by
  simp only [streamPreambleSteps, setMemoryWindowSteps, setAddressPointerSteps, List.append_assoc] at h
  obtain ⟨_, rfl, hwindowY⟩ := h.split_transaction
  obtain ⟨_, rfl, hpointerX⟩ := hwindowY.split_transaction
  obtain ⟨_, rfl, hpointerY⟩ := hpointerX.split_transaction
  obtain ⟨_, rfl, hwait⟩ := hpointerY.split_transaction
  obtain ⟨k, _, rfl, hram⟩ := Appends.split_waitIdle (by simpa [State.closed] using htimer) hwait
  obtain ⟨fs, rfl, hrest⟩ := hram.split_transaction
  refine ⟨k, fs, _, ?_, hrest⟩
  simp only [preambleEvents, windowEvents, pointerEvents, List.append_assoc]
  rfl

end

/-! ## A step appends the next of them -/

/-- The events the running op may still append. -/
def State.MayAppend (s : State) (es : List Event) : Prop := Appends (s.steps.drop s.sp) s.source es

/-- `t` follows `s` by the event `e` of the same op: with it before them, the events `t` may still append are some that
`s` may. -/
structure FollowsBy (s : State) (e : Event) (t : State) : Prop where
  inst : t.inst = s.inst
  latches : t.latches = s.latches
  trace : t.trace = s.trace ++ [e]
  mayAppend : ∀ fs, t.MayAppend fs → s.MayAppend (e :: fs)

/-- `x` is the state in which the step `sp` names has appended its event `e`, and `sp` has not moved. -/
structure Emitted (s : State) (e : Event) (x : State) : Prop where
  inst : x.inst = s.inst
  latches : x.latches = s.latches
  sp : x.sp = s.sp
  trace : x.trace = s.trace ++ [e]

/-- Where the op goes on after a bus event, the response was `ok`. -/
theorem State.busEvent_of_run {e : Resp → Event} {next : State → State} {s t : State} (h : s.busEvent e next = t)
    (hrun : t.phase = .run) : t = next (s.takeResp.emit (e .ok)) := by
  obtain ⟨-, he⟩ | ⟨-, he⟩ := State.busEvent_cases e next s <;> rw [← h, he]
  rw [← h, he] at hrun
  cases hrun

/-- Where the op goes on after a step, `advance` has moved `sp` alone. -/
theorem State.advance_of_run {s : State} (h : s.advance.phase = .run) : s.advance = { s with sp := s.sp + 1 } := by
  by_cases hlt : s.sp + 1 < s.steps.length
  · exact State.advance_of_lt hlt
  · rw [State.advance_of_last (by omega)] at h
    exact absurd h (phaseAfterEnd_ne_run .ok s.phase)

section
variable {s x : State} {m : MicroStep} {e : Event} (hm : s.steps[s.sp]? = some m) (hx : Emitted s e x)
include hm hx

/-- A step has been performed, and the op goes on. -/
theorem Emitted.follows_advance (hrun : x.advance.phase = .run)
    (hnext : ∀ l fs, Appends l x.source fs → Appends (m :: l) s.source (e :: fs)) : FollowsBy s e x.advance := by
  obtain ⟨hlt, rfl⟩ := List.getElem?_eq_some_iff.mp hm
  rw [State.advance_of_run hrun]
  refine ⟨hx.inst, hx.latches, hx.trace, fun fs h => ?_⟩
  rw [State.MayAppend, List.drop_eq_getElem_cons hlt]
  refine hnext _ _ ?_
  rwa [← State.steps_congr hx.inst (congrArg Latches.op hx.latches), ← hx.sp]

/-- The op stays at its loop step (R36). -/
theorem Emitted.follows_stay (hnext : ∀ l fs, Appends (m :: l) x.source fs → Appends (m :: l) s.source (e :: fs)) :
    FollowsBy s e x := by
  obtain ⟨hlt, rfl⟩ := List.getElem?_eq_some_iff.mp hm
  refine ⟨hx.inst, hx.latches, hx.trace, fun fs h => ?_⟩
  rw [State.MayAppend, State.steps_congr hx.inst (congrArg Latches.op hx.latches), hx.sp,
    List.drop_eq_getElem_cons hlt] at h
  rw [State.MayAppend, List.drop_eq_getElem_cons hlt]
  exact hnext _ _ h

end

theorem State.opened_source (c : CmdName) (s : State) : (s.opened c).source = s.source.opened c := by cases c <;> rfl

section
variable {s t : State} (hrun : t.phase = .run)
include hrun

/-- A command byte (R86). -/
theorem follows_of_bus {c : CmdName} (hm : s.steps[s.sp]? = some (.bus c))
    (h : exec c.toInstr (s.enterSubsequence c) = .next t) : ∃ e, FollowsBy s e t := by
  rw [exec_toInstr, State.params_enterSubsequence] at h
  obtain rfl := State.busEvent_of_run (Host.Outcome.next.inj h) hrun
  refine ⟨.cmd (s.params.cmd.code c) .ok,
    Emitted.follows_advance hm (by constructor <;> simp) hrun fun l fs hfs => ⟨fs, rfl, ?_⟩⟩
  rw [← State.opened_source]
  simpa [State.source, State.opened] using hfs

/-- A data byte (R86). -/
theorem follows_of_dataByte (hm : s.steps[s.sp]? = some .dataByte) (h : dataByteStep s = .next t) :
    ∃ e, FollowsBy s e t := by
  unfold dataByteStep at h
  split at h
  next b bs hp =>
    obtain rfl := State.busEvent_of_run (Host.Outcome.next.inj h) hrun
    refine ⟨.data b .ok,
      Emitted.follows_advance hm (by constructor <;> simp) hrun fun l fs hfs => ⟨b, bs, fs, hp, rfl, ?_⟩⟩
    simpa [State.source] using hfs
  next => cases h

/-- One event of a WaitIdle (R210). -/
theorem follows_of_poll (hm : s.steps[s.sp]? = some .poll) (h : s.pollStep = t) : ∃ e, FollowsBy s e t := by
  subst h
  unfold State.pollStep at hrun ⊢
  split at hrun
  next ms ht =>
    refine ⟨.wait ms, Emitted.follows_stay hm (by constructor <;> rfl) ?_⟩
    rintro l _ ⟨k, fs, rfl, hfs⟩
    exact ⟨k, fs, by simp [State.source, ht], hfs⟩
  next ht =>
    split at hrun
    next =>
      refine ⟨.busy .low, Emitted.follows_advance hm (by constructor <;> simp) hrun fun l fs hfs => ⟨0, fs, ?_, ?_⟩⟩
      · simp [State.source, ht, highEvents]
      · simpa [State.source, ht] using hfs
    next =>
      refine ⟨.busy .high, Emitted.follows_stay hm (by constructor <;> simp) ?_⟩
      rintro l _ ⟨k, fs, rfl, hfs⟩
      refine ⟨k + 1, fs, ?_, ?_⟩
      · simp [State.source, ht, highEvents_succ]
      · simpa [State.source] using hfs
    next => cases hrun

/-- A byte of a stream, after which the op stays at its stream or goes on. -/
theorem follows_of_streamByte {x : State} {m : MicroStep} {b : Byte} (hm : s.steps[s.sp]? = some m)
    (hstream : m = .fillByte ∨ m = .packByte) (hx : Emitted s (.data b .ok) x) (hsource : x.source = s.source)
    (h : t = x ∨ t = x.advance) : FollowsBy s (.data b .ok) t := by
  obtain rfl | rfl := h
  · refine hx.follows_stay hm fun l es hes => ?_
    rw [hsource] at hes
    obtain rfl | rfl := hstream <;> obtain ⟨bytes, fs, rfl, hfs⟩ := hes <;> exact ⟨b :: bytes, fs, rfl, hfs⟩
  · refine hx.follows_advance hm hrun fun l fs hfs => ?_
    rw [hsource] at hfs
    obtain rfl | rfl := hstream <;> exact ⟨[b], fs, rfl, hfs⟩

/-- A fill byte (R182). -/
theorem follows_of_fillByte (hm : s.steps[s.sp]? = some .fillByte) (h : fillByteStep s = .next t) :
    ∃ e, FollowsBy s e t := by
  unfold fillByteStep at h
  split at h
  next n _ =>
    have ht := State.busEvent_of_run (Host.Outcome.next.inj h) hrun
    refine ⟨.data s.latches.fill .ok, ?_⟩
    split at ht
    · exact follows_of_streamByte hrun hm (.inl rfl) (by constructor <;> simp) (by simp [State.source]) (.inr ht)
    · exact follows_of_streamByte hrun hm (.inl rfl) (by constructor <;> simp) (by simp [State.source]) (.inl ht)
  next => cases h

/-- A packed byte (R191). -/
theorem follows_of_packByte (hm : s.steps[s.sp]? = some .packByte) (h : packByteStep s = .next t) :
    ∃ e, FollowsBy s e t := by
  unfold packByteStep at h
  split at h
  next r g _ =>
    split at h
    next =>
      have ht := State.busEvent_of_run (Host.Outcome.next.inj h) hrun
      refine ⟨.data (s.packByte r g) .ok, ?_⟩
      split at ht
      · exact follows_of_streamByte hrun hm (.inr rfl) (by constructor <;> simp) (by simp [State.source]) (.inl ht)
      · exact follows_of_streamByte hrun hm (.inr rfl) (by constructor <;> simp) (by simp [State.source]) (.inr ht)
    next => cases h
  next => cases h

/-- Any step after which the op goes on appends the next of the events it may (R21). -/
theorem follows_of_microStep {m : MicroStep} (hm : s.steps[s.sp]? = some m) (h : runMicroStep m s = .next t) :
    ∃ e, FollowsBy s e t := by
  cases m with
  | setPin lvl =>
    obtain rfl := Host.Outcome.next.inj h
    exact ⟨.pin lvl, Emitted.follows_advance hm (by constructor <;> rfl) hrun fun l fs hfs => ⟨fs, rfl, hfs⟩⟩
  | delay ms =>
    obtain rfl := Host.Outcome.next.inj h
    exact ⟨.wait ms, Emitted.follows_advance hm (by constructor <;> rfl) hrun fun l fs hfs => ⟨fs, rfl, hfs⟩⟩
  | bus c => exact follows_of_bus hrun hm h
  | dataByte => exact follows_of_dataByte hrun hm h
  | poll => exact follows_of_poll hrun hm (Host.Outcome.next.inj h)
  | fillByte => exact follows_of_fillByte hrun hm h
  | packByte => exact follows_of_packByte hrun hm h

end

/-! ## What the running op has appended -/

/-- The events of a stream with what precedes it (R168). -/
def IsStream (p : Params) (l : Latches) (es : List Event) : Prop :=
  ∃ k bytes, es = preambleEvents p (opWindow p l) k ++ streamEvents bytes

/-- CLEAR and DRAW are the ops that stream (R180, R190). -/
def StreamOp (op : OpCode) : Prop := op = .clear ∨ op = .draw

/-- What the running op has appended since `before` is the beginning of a stream with what precedes it, if it is an op
that streams: followed by any events it may still append, it is a whole one. -/
def OnCourse (before : List Event) (s : State) : Prop :=
  ∃ done, s.trace = before ++ done
    ∧ (StreamOp s.latches.op → ∀ fs, s.MayAppend fs → IsStream s.params s.latches (done ++ fs))

/-- The whole step list of CLEAR and of DRAW appends a stream with what precedes it (R168). -/
theorem isStream_of_appends {s : State} {es : List Event} (hop : StreamOp s.latches.op) (htimer : s.timer = none)
    (h : Appends (stepList s.params s.latches.op) s es) : IsStream s.params s.latches es := by
  obtain hop | hop := hop <;> rw [hop] at h <;>
    obtain ⟨k, _, u, rfl, bytes, _, rfl, rfl⟩ := h.split_preamble htimer <;>
    exact ⟨k, bytes, by rw [List.append_nil]⟩

/-- An accepted op is on course at its start (R232). -/
theorem OnCourse.accept {s : State} {op : OpCode} {mode : LutMode} {fill : Byte} (htimer : s.timer = none) :
    OnCourse s.trace ((s.latch op mode fill).accept op) :=
  ⟨[], (List.append_nil _).symm, fun hop _ h =>
    isStream_of_appends (s := ((s.latch op mode fill).accept op).source) hop htimer h⟩

/-- What leaves the block's sequencing alone leaves the op on course. -/
theorem OnCourse.untouched {before : List Event} {s t : State} (hs : OnCourse before s) (h : OpUntouched s t) :
    OnCourse before t := by
  obtain ⟨done, htrace, hnext⟩ := hs
  have hsource : t.source = s.source := by
    simp only [State.source, h.inst, h.latches, h.window, h.pointer, h.payload, h.timer]
  refine ⟨done, h.trace.trans htrace, fun hop fs hfs => ?_⟩
  rw [State.MayAppend, State.steps_congr h.inst (by rw [h.latches]), h.sp, hsource] at hfs
  rw [State.params, h.inst, h.latches]
  exact hnext (h.latches ▸ hop) fs hfs

/-- The block's turn leaves an op on course, while it goes on. -/
theorem OnCourse.after_blockStep {before : List Event} {s t : State} (hs : OnCourse before s)
    (hrun : s.phase = .run) (h : blockStep s = .next t) (ht : t.phase = .run) : OnCourse before t := by
  obtain ⟨hp, -⟩ | ⟨-, m, hm, h⟩ := blockStep_cases h
  · exact absurd hrun hp
  obtain ⟨done, htrace, hnext⟩ := hs
  obtain ⟨e, hinst, hlatches, hetrace, hmay⟩ := follows_of_microStep ht hm h
  refine ⟨done ++ [e], by rw [hetrace, htrace, List.append_assoc], fun hop fs hfs => ?_⟩
  rw [State.params, hinst, hlatches, List.append_assoc]
  exact hnext (hlatches ▸ hop) _ (hmay fs hfs)

/-- Every step leaves an op on course, while it goes on. -/
theorem OnCourse.after_step {before : List Event} {s t : State} (hs : OnCourse before s) (hi : Inv s)
    (hrun : s.phase = .run) (h : step s = .next t) (ht : t.phase = .run) : OnCourse before t := by
  have hrel := hi.released hrun
  rw [step_of_released hrel] at h
  obtain ⟨-, hb⟩ | ⟨a, rest, -, ha⟩ := releasedTurn_cases h
  · exact hs.after_blockStep hrun hb ht
  · obtain ⟨-, hb⟩ | ⟨-, rfl⟩ | ⟨hp, -⟩ | hsame := hostAct_released (s := { s with host := rest }) hrel ha
    · exact OnCourse.after_blockStep (s := { s with host := rest }) hs hrun hb ht
    · cases ht
    · exact absurd hrun hp
    · exact OnCourse.untouched (s := { s with host := rest }) hs hsame

/-- An op that starts in a step is on course from there (R231, R232). -/
theorem OnCourse.start {s t : State} (hi : Inv s) (hp : s.phase ≠ .run) (h : step s = .next t)
    (ht : t.phase = .run) : OnCourse s.trace t := by
  obtain ⟨hr, hs⟩ | ⟨hrel, hs⟩ := step_turns s <;> rw [hs] at h
  · rw [← resetTurn_held hr h] at ht
    cases ht
  · obtain ⟨-, hb⟩ | ⟨a, rest, -, ha⟩ := releasedTurn_cases h
    · obtain rfl := blockStep_of_not_run hp hb
      exact absurd ht hp
    · obtain ⟨-, hb⟩ | ⟨-, rfl⟩ | ⟨-, ⟨op, mode, fill, rfl⟩ | rfl⟩ | hsame :=
        hostAct_released (s := { s with host := rest }) hrel ha
      · obtain rfl := blockStep_of_not_run (s := { s with host := rest }) hp hb
        exact absurd ht hp
      · cases ht
      · rw [(State.admission_of_run ht).2]
        exact OnCourse.accept (s := State.clearRej _) (hi.atRest hp).timer
      · exact absurd ht (State.onIllegalWrite_not_run hp)
      · exact absurd (hsame.phase.symm.trans ht) hp

/-! ## Runs -/

/-- A run is a shorter run and a last step. -/
theorem run_succ_last {n : Nat} {s u : State} (h : core.run (n + 1) s = .next u) :
    ∃ t, core.run n s = .next t ∧ step t = .next u := by
  induction n generalizing s with
  | zero =>
    obtain ⟨t, ht, hrun⟩ := run_succ_eq_next h
    exact ⟨s, rfl, ht.trans hrun⟩
  | succ n ih =>
    obtain ⟨t, ht, hrun⟩ := run_succ_eq_next h
    obtain ⟨v, hv, hlast⟩ := ih hrun
    exact ⟨v, (run_succ ht n).trans hv, hlast⟩

/-- Every run from a good state ends in one. -/
theorem Inv.run {n : Nat} {s u : State} (hi : Inv s) (h : core.run n s = .next u) : Inv u := by
  induction n generalizing s with
  | zero => obtain rfl := Host.Outcome.next.inj h; exact hi
  | succ n ih =>
    obtain ⟨t, ht, hrun⟩ := run_succ_eq_next h
    exact ih (stepKeepsInvariant s t hi ht) hrun

/-- An op that runs after a run from a good state at rest has run since the last state at rest, and is on course since
then. -/
theorem onCourse_of_run {s : State} (hi : Inv s) (hp : s.phase ≠ .run) :
    ∀ {n : Nat} {u : State}, core.run n s = .next u → u.phase = .run →
      ∃ (m : Nat) (v : State), m < n ∧ core.run m s = .next v ∧ v.phase ≠ .run
        ∧ (∀ (j : Nat) (x : State), m < j → j ≤ n → core.run j s = .next x → x.phase = .run)
        ∧ OnCourse v.trace u := by
  intro n
  induction n with
  | zero =>
    intro u h hu
    obtain rfl := Host.Outcome.next.inj h
    exact absurd hu hp
  | succ n ih =>
    intro u h hu
    have hlast : ∀ x, core.run (n + 1) s = .next x → x.phase = .run := fun x hx => by
      rwa [← Host.Outcome.next.inj (h.symm.trans hx)]
    obtain ⟨t, ht, hstep⟩ := run_succ_last h
    by_cases htrun : t.phase = .run
    · obtain ⟨m, v, hm, hv, hrest, hall, hon⟩ := ih ht htrun
      refine ⟨m, v, Nat.lt_succ_of_lt hm, hv, hrest, fun j x hmj hjn hx => ?_,
        hon.after_step (hi.run ht) htrun hstep hu⟩
      obtain hlt | rfl := Nat.lt_or_eq_of_le hjn
      · exact hall j x hmj (Nat.le_of_lt_succ hlt) hx
      · exact hlast x hx
    · refine ⟨n, t, Nat.lt_succ_self n, ht, htrun, fun j x hnj hjn hx => ?_, .start (hi.run ht) htrun hstep hu⟩
      obtain rfl := Nat.le_antisymm hjn hnj
      exact hlast x hx

/-- Only CLEAR and DRAW have a stream's loop step (R180, R190). -/
theorem streamOp_of_mem {p : Params} {op : OpCode} {m : MicroStep} (hm : m ∈ stepList p op)
    (hstream : m = .fillByte ∨ m = .packByte) : StreamOp op := by
  cases op with
  | clear => exact .inl rfl
  | draw => exact .inr rfl
  | init | setlut | refresh | sleep =>
    obtain rfl | rfl := hstream <;> cases hmode : p.busyWaitMode <;>
      simp [stepList, physicalResetSteps, waitIdleSteps, hmode, transaction] at hm

/-- A stream's loop step is the op's last (R180, R190). -/
theorem State.todo_at_stream {s : State} {m : MicroStep} (hm : s.steps[s.sp]? = some m)
    (hstream : m = .fillByte ∨ m = .packByte) : s.steps.drop s.sp = [m] := by
  have hfollow := State.steps_follow hm
  obtain ⟨hlt, rfl⟩ := List.getElem?_eq_some_iff.mp hm
  rw [List.drop_eq_getElem_cons hlt]
  obtain h | h := hstream <;> rw [h] at hfollow ⊢ <;> rw [List.isEmpty_iff.mp hfollow]

/-- Settles O39: at its stream an op may append nothing more, so that what it has appended is whole. -/
theorem streamIsPrecededByWindowAndPointer : Obligations.StreamIsPrecededByWindowAndPointer := by
  intro s u n hi hp h hu hstream
  obtain ⟨m, v, hm, hv, hrest, hall, done, htrace, hnext⟩ := onCourse_of_run hi hp h hu
  obtain ⟨x, hx, hloop⟩ : ∃ x, u.steps[u.sp]? = some x ∧ (x = .fillByte ∨ x = .packByte) :=
    hstream.elim (fun hx => ⟨_, hx, .inl rfl⟩) fun hx => ⟨_, hx, .inr rfl⟩
  have hnil : u.MayAppend [] := by
    rw [State.MayAppend, State.todo_at_stream hx hloop]
    obtain rfl | rfl := hloop <;> exact ⟨[], [], rfl, rfl⟩
  obtain ⟨k, bytes, hdone⟩ := hnext (streamOp_of_mem (List.mem_of_getElem? hx) hloop) [] hnil
  rw [List.append_nil] at hdone
  exact ⟨m, v, hm, hv, hrest, hall, k, bytes, by rw [htrace, hdone, List.append_assoc]⟩

end Sys2Proof.Machine
end

section
/-! PROOFS. The commands of the stream, REFRESH and SLEEP send their bytes (R181, R196-R198, R216), and REFRESH from its
acceptance to its end (R195, R233). -/

namespace Sys2Proof.Machine

/-! ## The commands -/

/-- Settles O26: the payloads by definition. -/
theorem refreshAndSleepCommandsSendTheirBytes : Obligations.RefreshAndSleepCommandsSendTheirBytes :=
  ⟨sendsTransaction_of_payloadOf fun _ => rfl, sendsTransaction_of_payloadOf fun _ => rfl,
    sendsTransaction_of_payloadOf fun _ => rfl, sendsTransaction_of_payloadOf fun _ => rfl⟩

/-- The stream counter after the step of a bus command that the op goes on from (R181). -/
theorem exec_toInstr_stream {c : CmdName} {s t : State} (hok : s.nextResp = .ok) (hmore : s.sp + 1 < s.steps.length)
    (h : exec c.toInstr s = .next t) : t.stream = streamAfter c s := by
  obtain ⟨-, rfl⟩ | ⟨herr, -⟩ := exec_toInstr_cases h
  · rw [State.advance_of_lt (by simpa [State.steps, State.params] using hmore)]
  · simp [herr] at hok

/-- Settles O27: WRITE_RAM has no payload, and the counter is the one its op opens (R182, R191). -/
theorem writeRamOpensTheStream : Obligations.WriteRamOpensTheStream := by
  refine ⟨sendsTransaction_of_payloadOf fun _ => rfl, fun s hok hmore => ?_⟩
  obtain ⟨t, ht⟩ := everyInstructionAnswersANextState .writeRam s
  have hstream : t.stream = openStream s.params s.latches := exec_toInstr_stream (c := .writeRam) hok hmore ht
  refine ⟨t, ht, fun hclear => ?clear, fun hdraw => ?draw⟩
  case clear => rw [hstream, openStream, hclear, frameBytes, rowBytes]
  case draw => rw [hstream, openStream, hdraw]

/-! ## REFRESH -/

/-- The poll that ends an op, with `k` High readings before the Low one (R210, R233). -/
theorem OpAt.performs_poll_last {s : State} {k n : Nat} {rest : List Resp} {bs : List BusyResp}
    (h : OpAt s [.poll] n rest) (hbs : s.busyScript = List.replicate k .high ++ .low :: bs) :
    ∃ x, Performs s (highEvents k ++ [.busy .low]) x.complete ∧ GoesOn s x
      ∧ x.busScript = List.replicate n .ok ++ rest := by
  have hlast : s.steps.drop (s.sp + 1) = [] := State.todo_after (l := [.poll]) h.todo rfl
  refine ⟨{ s with trace := s.trace ++ highEvents k ++ [.busy .low], busyScript := bs }, ?run,
    ⟨by constructor <;> rfl, rfl, rfl, rfl, rfl, rfl, rfl⟩, h.script⟩
  case run =>
    rw [← State.advance_of_last]
    · exact h.toOnTurn.performs_poll (State.step_of_todo h.todo) h.timer hbs
    · exact List.drop_eq_nil_iff.mp hlast

/-- A transaction and a WaitIdle that end the op. In REFERENCE_NOOP mode the transaction's last event ends it, in POLL
mode the Low reading (R210, R211, R233). -/
theorem OpAt.sends_waitIdle_last {s : State} {c : CmdName} {k : Nat} {rest : List Resp}
    (h : OpAt s (transaction c ++ waitIdleSteps s.params) (payloadLength c + 1) rest) (hbusy : BusyAfter s k) :
    ∃ x, Performs s (sentEvents s.params c (payloadOf c (s.enterSubsequence c)) ++ waitIdleEvents s.params k) x.complete
      ∧ GoesOn s x ∧ x.busScript = rest := by
  cases hmode : s.params.busyWaitMode with
  | referenceNoop =>
    rw [waitIdleSteps_of_noop hmode] at h
    obtain ⟨x, hrun, hon, hend, hrest⟩ := h.toOnTurn.performs_transaction_advance (rest := rest) h.todo rfl
      (by rw [h.script]; simp [transaction])
    rw [State.advance_of_last (by rw [hon.steps]; exact List.drop_eq_nil_iff.mp hend)] at hrun
    exact ⟨x, by rwa [waitIdleEvents_of_noop hmode, List.append_nil], hon, hrest⟩
  | poll =>
    rw [waitIdleSteps_of_poll hmode] at h
    obtain ⟨bs, hbs⟩ := hbusy hmode
    obtain ⟨hsent, hu, hon⟩ := OpAt.sends (n := 0) h (List.cons_ne_nil _ _)
    obtain ⟨x, hpoll, honX, hrest⟩ := hu.performs_poll_last (by simpa [State.sent] using hbs)
    exact ⟨x, by rw [waitIdleEvents_of_poll hmode]; exact hsent.trans hpoll, hon.trans honX, hrest⟩

/-- Settles O34: acceptance, two transactions, and the last with the WaitIdle. -/
theorem refreshRunsToItsEnd : Obligations.RefreshRunsToItsEnd := by
  intro s k rest hi hacc hquiet hscript hbusy
  have hat := OpAt.of_accepted (mode := .fullUpdate) (fill := 0#8) hi hacc hquiet hscript
  rw [stepList, List.append_assoc, List.append_assoc] at hat
  obtain ⟨hupdate, hu, honU⟩ := OpAt.sends (n := 2) hat (List.cons_ne_nil _ _)
  obtain ⟨hactivate, hv, honV⟩ := OpAt.sends (n := 1) hu (List.cons_ne_nil _ _)
  obtain ⟨x, hlast, honX, hrest⟩ := OpAt.sends_waitIdle_last (k := k) hv hbusy
  have hall : Performs _ (refreshEvents s.params k) _ := (hupdate.trans hactivate).trans hlast
  have hend := (honU.trans honV).trans honX
  obtain ⟨hphase, hsp, hstatus⟩ := hend.complete_endedOk
  exact ⟨_, x.complete, exec_of_accepts rfl hacc, hall.run, hall.trace, ⟨hphase, hsp, hstatus⟩, hend.rst, hrest,
    hend.complete_hostSideKept⟩

end Sys2Proof.Machine
end

section
/-! PROOFS. The poll of WaitIdle: where it stands, one iteration of it, and its runs, ended by a Low reading or not ended
(R210-R214, R266); and SLEEP from its acceptance to its end (R215, R233). -/

namespace Sys2Proof.Machine

/-! ## SLEEP -/

/-- Settles O35: acceptance, and one transaction with the WaitIdle. -/
theorem sleepRunsToItsEnd : Obligations.SleepRunsToItsEnd := by
  intro s k rest hi hacc hquiet hscript hbusy
  have hat := OpAt.of_accepted (mode := .fullUpdate) (fill := 0#8) (n := 1) hi hacc hquiet hscript
  obtain ⟨x, hrun, hon, hrest⟩ := OpAt.sends_waitIdle_last (k := k) hat hbusy
  have hall : Performs _ (sleepEvents s.params k) _ := hrun
  obtain ⟨hphase, hsp, hstatus⟩ := hon.complete_endedOk
  exact ⟨_, x.complete, exec_of_accepts rfl hacc, hall.run, hall.trace, ⟨hphase, hsp, hstatus⟩, hon.rst, hrest,
    hon.complete_hostSideKept⟩

/-! ## Where the poll stands -/

/-- Only POLL mode has a poll, and then only CLEAR, DRAW, REFRESH and SLEEP (R211, R212). -/
theorem poll_mem_stepList {p : Params} {op : OpCode} (h : .poll ∈ stepList p op) :
    p.busyWaitMode = .poll ∧ (op = .clear ∨ op = .draw ∨ op = .refresh ∨ op = .sleep) := by
  constructor
  · cases hmode : p.busyWaitMode with
    | poll => rfl
    | referenceNoop =>
      cases op <;> simp [stepList, physicalResetSteps, streamPreambleSteps, setMemoryWindowSteps,
        setAddressPointerSteps, waitIdleSteps_of_noop hmode, transaction] at h
  · cases op with
    | clear | draw | refresh | sleep => simp
    | init | setlut => simp [stepList, physicalResetSteps, transaction] at h

/-- Settles O40: a busy reading fits the poll alone (`step_event`). -/
theorem busyIsReadOnlyInWaitIdle : Obligations.BusyIsReadOnlyInWaitIdle := by
  intro s t r h ht
  obtain ⟨m, hm, rfl⟩ := step_event h ht
  exact ⟨hm, poll_mem_stepList (List.mem_of_getElem? hm)⟩

/-- A poll that is the op's last step is REFRESH's or SLEEP's: CLEAR and DRAW end with their stream (R180, R190, R195,
R215). -/
theorem State.op_of_poll_last {s : State} (hm : s.steps[s.sp]? = some .poll) (hlast : s.sp + 1 = s.steps.length) :
    s.latches.op = .refresh ∨ s.latches.op = .sleep := by
  have hend : s.steps.getLast? = some .poll := by
    rw [List.getLast?_eq_getElem?, ← hlast, Nat.add_sub_cancel, hm]
  obtain ⟨-, hop | hop | hop⟩ := poll_mem_stepList (List.mem_of_getElem? hm)
  case inl => simp [State.steps, hop, stepList] at hend
  case inr.inl => simp [State.steps, hop, stepList] at hend
  case inr.inr => exact hop

/-! ## The end of a step -/

theorem State.advance_before_last {s : State} (hmore : s.sp + 1 < s.steps.length) :
    s.advance.sp = s.sp + 1 ∧ s.advance.phase = s.phase ∧ s.advance.status = s.status := by
  rw [State.advance_of_lt hmore]
  exact ⟨rfl, rfl, rfl⟩

theorem State.advance_at_last {s : State} (hrun : s.phase = .run) (hlast : s.sp + 1 = s.steps.length) :
    s.advance.phase = .idle ∧ s.advance.sp = 0 ∧ s.advance.status = (s.status.opDone s.latches).ended .ok := by
  rw [State.advance_of_last hlast.ge]
  simp [hrun, phaseAfterEnd]

/-! ## One iteration of the poll -/

section
variable {s : State} (h : OnTurn s) (hm : s.steps[s.sp]? = some .poll) (ht : s.timer = none)
include h hm ht

theorem OnTurn.step_of_low (hr : s.nextBusy = .low) : step s = .next (s.takeBusy.emit (.busy .low)).advance := by
  simp only [h.step_eq hm, runMicroStep, State.pollStep, ht, hr]

theorem OnTurn.step_of_high (hr : s.nextBusy = .high) :
    step s = .next { s.takeBusy.emit (.busy .high) with timer := some Config.pollIntervalMs } := by
  simp only [h.step_eq hm, runMicroStep, State.pollStep, ht, hr]

theorem OnTurn.step_of_err (hr : s.nextBusy = .err) :
    step s = .next (s.takeBusy.emit (.busy .err)).raiseTransportFailure := by
  simp only [h.step_eq hm, runMicroStep, State.pollStep, ht, hr]

end

/-- Settles O44: the three readings, and for a Low one at the op's last step the flags of `State.op_of_poll_last`'s two
ops. -/
theorem pollReadsThenChecks : Obligations.PollReadsThenChecks := by
  intro s hrel hrun hquiet hm ht
  have h : OnTurn s := ⟨hrun, hrel, hquiet⟩
  refine ⟨fun hr => ?low, fun hr => ?high, fun hr => ?err⟩
  case low =>
    refine ⟨_, h.step_of_low hm ht hr, by simp, fun hmore => ?_, fun hlast => ?_⟩
    · simpa [hrun] using State.advance_before_last (s := s.takeBusy.emit (.busy .low)) (by simpa using hmore)
    · obtain ⟨hphase, hsp, hstatus⟩ := State.advance_at_last (s := s.takeBusy.emit (.busy .low)) (by simpa using hrun)
        (by simpa using hlast)
      refine ⟨hphase, hsp, (State.op_of_poll_last hm hlast).imp (fun hop => ⟨hop, ?_⟩) (fun hop => ⟨hop, ?_⟩)⟩ <;>
        simp [hstatus, Status.opDone, hop, Status.ended]
  case high =>
    have hwait := OnTurn.step_wait (s := { s.takeBusy.emit (.busy .high) with timer := some Config.pollIntervalMs })
      ⟨by simpa using hrun, by simpa using hrel, by simpa using hquiet⟩ (by simpa [State.steps] using hm) rfl
    refine ⟨_, _, h.step_of_high hm ht hr, by simp, hwait, ?_⟩
    simp [hrun, Config.pollIntervalMs]
  case err => exact ⟨_, h.step_of_err hm ht hr, by simp, by simp⟩

/-! ## Runs of the poll -/

/-- A High reading and its wait are two events, and so two steps (log entry 10). -/
theorem highEvents_length (k : Nat) : (highEvents k).length = 2 * k := by
  simp [highEvents, Nat.mul_comm]

/-- Settles O45: `OnTurn.performs_poll`, and the two ends of `advance`. -/
theorem waitIdleEndsAfterLow : Obligations.WaitIdleEndsAfterLow := by
  intro s k rest hrel hrun hquiet hm ht hscript
  have hpoll := OnTurn.performs_poll ⟨hrun, hrel, hquiet⟩ hm ht hscript
  have hlen : (highEvents k ++ [Event.busy .low]).length = 2 * k + 1 := by simp [highEvents_length]
  refine ⟨_, hlen ▸ hpoll.run, hpoll.trace.trans (List.append_assoc ..).symm, fun hmore => ?_, fun hlast => ?_⟩
  · obtain ⟨hsp, hphase, hstatus⟩ := State.advance_before_last (s := { s with
      trace := s.trace ++ highEvents k ++ [.busy .low], busyScript := rest }) hmore
    exact ⟨hsp, hphase.trans hrun, hstatus⟩
  · obtain ⟨hphase, hsp, hstatus⟩ := State.advance_at_last (s := { s with
      trace := s.trace ++ highEvents k ++ [.busy .low], busyScript := rest }) hrun hlast
    exact ⟨hphase, hsp, by rw [hstatus, Status.ended_busy], by rw [hstatus, Status.ended_err]⟩

/-- Settles O46: `OnTurn.performs_highReadings` changes nothing but the trace and the readings still to come. -/
theorem hangGoesOnPolling : Obligations.HangGoesOnPolling := by
  intro s n rest hrel hrun hbusy hquiet hm ht hscript
  have hhigh := OnTurn.performs_highReadings ⟨hrun, hrel, hquiet⟩ hm ht hscript
  exact ⟨_, highEvents_length n ▸ hhigh.run, hhigh.trace, hrun, hbusy, rfl⟩

end Sys2Proof.Machine
end

section
/-! PROOFS. Host dispatch: what an `OP` write does while an op runs and while none does (R230, R231, R261), the frame of
the six host operations (R231, R232, R234), and the end of an op by a transport failure (R233, R262, R265). -/

namespace Sys2Proof.Machine

/-! ## An `OP` write -/

/-- To the block a word written to `OP` is an op of R81 or an illegal word (R230). -/
theorem opWrite_cases (w : Word) (s : State) :
    (∃ i op mode fill, decodeHost w = .ok i ∧ hostOpOf i = some (op, mode, fill)
      ∧ opWrite w s = .next (s.onOpWrite op mode fill))
    ∨ ∃ r, decodeHost w = .error r ∧ opWrite w s = .next s.onIllegalWrite := by
  cases hd : decodeHost w with
  | ok i =>
    obtain ⟨op, mode, fill, hi⟩ := decodeHost_hostOp hd
    exact .inl ⟨i, op, mode, fill, rfl, hi, (opWrite_of_decodes hd s).trans (exec_of_hostOp hi s)⟩
  | error r => exact .inr ⟨r, rfl, by rw [opWrite, hd]⟩

theorem State.onIllegalWrite_of_run {s : State} (h : s.phase = .run) : s.onIllegalWrite = s.reject := if_pos h

theorem State.onIllegalWrite_of_fault {s : State} (hp : s.phase ≠ .run) (hf : s.status.fault = true) :
    s.onIllegalWrite = s.clearRej.endWith .faulted := by
  rw [State.onIllegalWrite, if_neg hp, if_pos hf]

theorem State.onIllegalWrite_of_no_fault {s : State} (hp : s.phase ≠ .run) (hf : s.status.fault = false) :
    s.onIllegalWrite = s.clearRej.endWith .illegalOp := by
  rw [State.onIllegalWrite, if_neg hp, if_neg (by simp [hf])]

/-- While an op runs any word is rejected, legal or not (R230). -/
theorem opWrite_of_run {s : State} (h : s.phase = .run) (w : Word) : opWrite w s = .next s.reject := by
  obtain ⟨i, op, mode, fill, -, -, e⟩ | ⟨r, -, e⟩ := opWrite_cases w s <;> rw [e]
  · rw [State.onOpWrite_of_run h]
  · rw [State.onIllegalWrite_of_run h]

/-- Settles O10 by `opWrite_of_run`. -/
theorem opWriteWhileRunningIsDropped : Obligations.OpWriteWhileRunningIsDropped := by
  intro s w rest hrel hh hrun
  rw [step_of_action hrel hh, hostAct_wregOp]
  exact opWrite_of_run (s := { s with host := rest }) hrun w

/-! ## Admission, check by check (R231) -/

theorem State.admission_of_fault {op : OpCode} {mode : LutMode} {fill : Byte} {s : State}
    (hf : s.status.fault = true) : s.admission op mode fill = s.endWith .faulted :=
  if_pos hf

section
variable {s : State} {op : OpCode} {mode : LutMode} {fill : Byte} (hf : s.status.fault = false)
include hf

theorem State.admission_of_not_ready (hop : op ≠ .init) (hnot : ¬(s.status.init = true ∧ s.status.asleep = false)) :
    s.admission op mode fill = s.endWith .notReady := by
  rw [State.admission, if_neg (by simp [hf]), if_pos ⟨hop, by simpa [Status.ready] using hnot⟩]

theorem State.admission_of_invalid_args (hready : op = .init ∨ (s.status.init = true ∧ s.status.asleep = false))
    (hop : op = .draw) (hbad : ¬DrawRegistersValid s) :
    s.admission op mode fill = (s.latch op mode fill).endOp .invalidArg := by
  have hargs : drawArgsValid s.params (s.latch op mode fill).latches = false := by
    rw [← Bool.not_eq_true, drawArgsValid_latch]; exact hbad
  have hr : ¬(op ≠ .init ∧ s.status.ready = false) := by
    rintro ⟨hne, hnot⟩
    simp [Status.ready, hready.resolve_left hne] at hnot
  rw [State.admission, if_neg (by simp [hf]), if_neg hr, if_pos ⟨hop, hargs⟩]

end

/-- At rest an end other than TransportFailure leaves the phase (R233). -/
theorem phaseAfterEnd_at_rest {code : ErrCode} {ph : Phase} (hcode : code ≠ .transportFailure) (hp : ph ≠ .run) :
    phaseAfterEnd code ph = ph := by
  rw [phaseAfterEnd, if_neg hcode, if_neg hp]

/-- Only TransportFailure sets FAULT (R233). -/
theorem Status.ended_of_ne {code : ErrCode} (hcode : code ≠ .transportFailure) (t : Status) :
    t.ended code = { t with err := code, busy := false } := by
  simp [Status.ended, hcode]

theorem Status.ended_transportFailure (t : Status) :
    t.ended .transportFailure = { t with err := .transportFailure, fault := true, busy := false } := by
  simp [Status.ended]

/-- An end with a code of admission, REJ cleared first, turns the op away. -/
theorem TurnedAway.of_end {s t : State} {code : ErrCode} (hp : s.phase ≠ .run) (hcode : code ≠ .transportFailure)
    (hstatus : t.status = (s.status.setRej false).ended code) (hphase : t.phase = phaseAfterEnd code s.phase)
    (hsp : t.sp = 0) (htrace : t.trace = s.trace) : TurnedAway s t code where
  status := by rw [hstatus, Status.ended_of_ne hcode]; rfl
  phase := by rw [hphase, phaseAfterEnd_at_rest hcode hp]
  sp := hsp
  trace := htrace

/-- Settles O11: each clause is one outcome of admission. -/
theorem admissionChecksInOrder : Obligations.AdmissionChecksInOrder := by
  intro s w rest hrel hh hp
  rw [step_of_action hrel hh, hostAct_wregOp]
  obtain ⟨i, op, mode, fill, hd, hi, e⟩ | ⟨r, hd, e⟩ := opWrite_cases w { s with host := rest }
  · rw [State.onOpWrite_of_not_run (s := { s with host := rest }) hp] at e
    refine ⟨_, e, fun hf => ?faulted,
      fun hf => ⟨fun ⟨r, hr⟩ => by simp [hd] at hr, fun i' op' mode' fill' hd' hi' => ?_⟩⟩
    case faulted =>
      rw [State.admission_of_fault (s := State.clearRej { s with host := rest }) hf]
      exact .of_end hp nofun rfl rfl rfl rfl
    obtain rfl : i = i' := Except.ok.inj (hd.symm.trans hd')
    obtain ⟨rfl, rfl, rfl⟩ : op = op' ∧ mode = mode' ∧ fill = fill' := by simpa [hi] using hi'
    refine ⟨fun hop hnot => ?notReady, fun hready => ⟨fun hop hbad => ?invalidArg, fun hargs => ?accepted⟩⟩
    case notReady =>
      rw [State.admission_of_not_ready (s := State.clearRej { s with host := rest }) hf hop hnot]
      exact .of_end hp nofun rfl rfl rfl rfl
    case invalidArg =>
      rw [State.admission_of_invalid_args (s := State.clearRej { s with host := rest }) hf hready hop hbad]
      exact .of_end hp nofun rfl rfl rfl rfl
    case accepted =>
      rw [State.admission_of_accepts (s := State.clearRej { s with host := rest }) hf hready.resolve_left hargs]
      exact ⟨rfl, rfl, Status.accept_setRej op s.status, rfl, rfl⟩
  · refine ⟨_, e, fun hf => ?faulted, fun hf => ⟨fun _ => ?illegalOp, fun i op mode fill hd' _ => by simp [hd] at hd'⟩⟩
    case faulted =>
      rw [State.onIllegalWrite_of_fault (s := { s with host := rest }) hp hf]
      exact .of_end hp nofun rfl rfl rfl rfl
    case illegalOp =>
      rw [State.onIllegalWrite_of_no_fault (s := { s with host := rest }) hp hf]
      exact .of_end hp nofun rfl rfl rfl rfl

/-! ## The frame of the host operations (R231, R232, R234) -/

/-- What a host operation leaves alone, accepted or not. -/
structure HostOpFrame (s t : State) : Prop where
  hostSide : HostSideKept s t
  trace : t.trace = s.trace
  rst : t.rst = s.rst
  busScript : t.busScript = s.busScript
  busyScript : t.busyScript = s.busyScript
  mode : t.status.mode = s.status.mode
  fault : t.status.fault = s.status.fault

theorem State.reject_frame (s : State) : HostOpFrame s s.reject := by
  refine ⟨?_, rfl, rfl, rfl, rfl, rfl, rfl⟩
  constructor <;> simp

theorem State.clearRej_admission_frame (op : OpCode) (mode : LutMode) (fill : Byte) (s : State) :
    HostOpFrame s (s.clearRej.admission op mode fill) := by
  obtain ⟨-, e⟩ | ⟨-, -, -, e⟩ | ⟨-, -, -, -, e⟩ | ⟨-, -, -, e⟩ := s.clearRej.admission_cases op mode fill
  all_goals
    rw [e]
    refine ⟨?hostSide, ?_, ?_, ?_, ?_, ?_, ?_⟩
    case hostSide => constructor <;> simp
    all_goals simp

/-- Only an accepted INIT clears INIT and ASLEEP (R232). -/
theorem Status.accept_of_ne_init {op : OpCode} (hop : op ≠ .init) (t : Status) :
    t.accept op = { t with busy := true } := by
  cases op with
  | init => exact absurd rfl hop
  | setlut | clear | draw | refresh | sleep => rfl

/-- But for an accepted INIT, admission leaves INIT and ASLEEP. -/
theorem State.admission_ready_flags {op : OpCode} {mode : LutMode} {fill : Byte} {s : State}
    (h : op = .init → s.status.fault = true) :
    (s.admission op mode fill).status.init = s.status.init
    ∧ (s.admission op mode fill).status.asleep = s.status.asleep := by
  obtain ⟨-, e⟩ | ⟨-, -, -, e⟩ | ⟨-, -, -, -, e⟩ | ⟨hf, -, -, e⟩ := s.admission_cases op mode fill <;> rw [e]
  · exact ⟨rfl, rfl⟩
  · exact ⟨rfl, rfl⟩
  · exact ⟨rfl, rfl⟩
  · have hop : op ≠ .init := fun hop => by simp [h hop] at hf
    rw [State.accept_status, Status.accept_of_ne_init hop]
    exact ⟨rfl, rfl⟩

/-- Settles O13: a host operation is a rejection or an admission. -/
theorem hostOpsFrame : Obligations.HostOpsFrame := by
  intro s t i op mode fill hi h
  obtain rfl : s.onOpWrite op mode fill = t := Host.Outcome.next.inj ((exec_of_hostOp hi s).symm.trans h)
  by_cases hrun : s.phase = .run
  · rw [State.onOpWrite_of_run hrun]
    obtain ⟨hside, htrace, hrst, hbus, hbusy, hmode, hfault⟩ := s.reject_frame
    exact ⟨hside, htrace, hrst, hbus, hbusy, hmode, hfault, fun _ => ⟨rfl, rfl⟩⟩
  · rw [State.onOpWrite_of_not_run hrun]
    obtain ⟨hside, htrace, hrst, hbus, hbusy, hmode, hfault⟩ := s.clearRej_admission_frame op mode fill
    refine ⟨hside, htrace, hrst, hbus, hbusy, hmode, hfault, fun hnot => ?_⟩
    exact State.admission_ready_flags (s := s.clearRej) fun hop => by simpa [hop, hrun] using hnot

/-! ## Transport failures (R233, R262) -/

/-- Settles O29: the bus event raises. -/
theorem failedCommandByteRaises : Obligations.FailedCommandByteRaises := by
  intro s c herr
  refine ⟨_, (exec_toInstr c s).trans (congrArg _ (State.busEvent_of_err herr)), ?_, ?_, rfl, rfl⟩
  · simp
  · simp [Status.ended_transportFailure]

/-- An event of the block's turn ends the op with TransportFailure if its response is `err`, and otherwise leaves the op
on its way or at its loop step. -/
theorem blockStep_appends {s t : State} {e : Event} (h : blockStep s = .next t) (ht : t.trace = s.trace ++ [e]) :
    ∃ s', SameCore s s' ∧ ((e.failed = true ∧ t = (s'.emit e).raiseTransportFailure)
      ∨ (e.failed = false ∧ (t = (s'.emit e).advance ∨ t = s'.emit e))) := by
  obtain ⟨-, rfl⟩ | ⟨-, m, -, hm⟩ := blockStep_cases h
  · simp at ht
  · obtain ⟨s', e', core, -, hend⟩ := runMicroStep_shape hm
    obtain rfl : e' = e := by
      obtain ⟨-, rfl⟩ | ⟨-, rfl | rfl⟩ := hend <;> simpa [core.trace] using ht
    exact ⟨s', core, hend⟩

/-- Only the block's turn appends an event, and only with the reset input released. -/
theorem step_appends {s t : State} {e : Event} (h : step s = .next t) (ht : t.trace = s.trace ++ [e]) :
    s.resetInput = false ∧ ∃ rest, blockStep { s with host := rest } = .next t := by
  obtain ⟨hr, hs⟩ | ⟨hrel, hs⟩ := step_turns s <;> rw [hs] at h
  · rw [← resetTurn_held hr h] at ht
    simp at ht
  · refine ⟨hrel, ?_⟩
    obtain ⟨hh, hb⟩ | ⟨a, rest, -, ha⟩ := releasedTurn_cases h
    · exact ⟨s.host, hb⟩
    · obtain hb | ⟨-, hnil⟩ | hsame := hostAct_trace (s := { s with host := rest }) hrel ha
      · exact ⟨rest, hb⟩
      · simp [hnil] at ht
      · simp [hsame] at ht

/-! ## FAULT lasts until a block reset (R265, R269) -/

/-- The block after a TransportFailure, its reset input released. -/
structure InFault (s : State) : Prop where
  released : s.resetInput = false
  phase : s.phase = .fault
  fault : s.status.fault = true

theorem InFault.not_run {s : State} (hs : InFault s) : s.phase ≠ .run := by simp [hs.phase]

/-- An `OP` write to a faulted block ends FAULTED (R265). -/
theorem InFault.after_faulted {s : State} (hs : InFault s) : InFault (s.clearRej.endWith .faulted) where
  released := hs.released
  phase := (phaseAfterEnd_at_rest (code := .faulted) nofun hs.not_run).trans hs.phase
  fault := by simp [hs.fault]

/-- A host action other than the assertion of the reset input leaves the block in FAULT and appends no event. -/
theorem InFault.after_hostAct {a : HostAction} {s t : State} (hs : InFault s) (hno : a ≠ .resetInput true)
    (h : hostAct a s = .next t) : InFault t ∧ t.trace = s.trace := by
  obtain ⟨-, hb⟩ | ⟨ha, -⟩ | ⟨hp, ⟨op, mode, fill, rfl⟩ | rfl⟩ | hsame := hostAct_released hs.released h
  · obtain rfl := blockStep_of_not_run hs.not_run hb
    exact ⟨hs, rfl⟩
  · exact absurd ha hno
  · rw [State.admission_of_fault (s := s.clearRej) hs.fault]
    exact ⟨hs.after_faulted, rfl⟩
  · rw [State.onIllegalWrite_of_fault hp hs.fault]
    exact ⟨hs.after_faulted, rfl⟩
  · exact ⟨⟨hsame.resetInput.trans hs.released, hsame.phase.trans hs.phase, by rw [hsame.status]; exact hs.fault⟩,
      hsame.trace⟩

/-- So does a step whose action is not that assertion (R265). -/
theorem InFault.after_step {s t : State} (hs : InFault s) (hno : ∀ rest, s.host ≠ .resetInput true :: rest)
    (h : step s = .next t) : InFault t ∧ t.trace = s.trace := by
  rw [step_of_released hs.released] at h
  obtain ⟨-, hb⟩ | ⟨a, rest, hh, ha⟩ := releasedTurn_cases h
  · obtain rfl := blockStep_of_not_run hs.not_run hb
    exact ⟨hs, rfl⟩
  · have hs' : InFault { s with host := rest } := ⟨hs.released, hs.phase, hs.fault⟩
    exact hs'.after_hostAct (fun hreset => hno rest (hreset ▸ hh)) ha

/-- A step puts no assertion of the reset input into the host's script. -/
theorem step_no_assertion {s t : State} (hrel : s.resetInput = false) (hno : ∀ a ∈ s.host, a ≠ .resetInput true)
    (h : step s = .next t) : ∀ a ∈ t.host, a ≠ .resetInput true := by
  rw [step_of_released hrel] at h
  obtain ⟨-, hb⟩ | ⟨a, rest, hh, ha⟩ := releasedTurn_cases h
  · rw [blockStep_host hb]; exact hno
  · have hrest : ∀ x ∈ rest, x ≠ .resetInput true := fun x hx => hno x (hh ▸ List.mem_cons_of_mem a hx)
    obtain ht | ht := hostAct_host ha <;> rw [ht]
    · exact hrest
    · exact List.forall_mem_cons.mpr ⟨nofun, List.forall_mem_cons.mpr ⟨nofun, hrest⟩⟩

/-- A run without an assertion of the reset input appends no event and ends in FAULT. -/
theorem InFault.run {n : Nat} {s u : State} (hs : InFault s) (hno : ∀ a ∈ s.host, a ≠ .resetInput true)
    (h : core.run n s = .next u) : u.trace = s.trace ∧ u.phase = .fault := by
  induction n generalizing s with
  | zero => obtain rfl := Host.Outcome.next.inj h; exact ⟨rfl, hs.phase⟩
  | succ n ih =>
    obtain ⟨t, ht, hrun⟩ := run_succ_eq_next h
    have hhead : ∀ rest, s.host ≠ .resetInput true :: rest := fun rest hh => hno _ (hh ▸ List.mem_cons_self) rfl
    obtain ⟨hfault, htrace⟩ := hs.after_step hhead ht
    obtain ⟨hu, hphase⟩ := ih hfault (step_no_assertion hs.released hno ht) hrun
    exact ⟨hu.trans htrace, hphase⟩

/-- Settles O41: the event is of the block's turn, a failing one raises, and from there `InFault` lasts. -/
theorem transportFailureIsPrecise : Obligations.TransportFailureIsPrecise := by
  intro s t e h ht
  obtain ⟨hrel, rest, hb⟩ := step_appends h ht
  obtain ⟨s', core, hend⟩ := blockStep_appends hb ht
  obtain ⟨hfailed, rfl⟩ | ⟨hok, hnext⟩ := hend
  · have hstatus : (s'.emit e).raiseTransportFailure.status
        = { s.status with err := .transportFailure, fault := true, busy := false } := by
      rw [State.raiseTransportFailure_status, State.emit_status, core.status, Status.ended_transportFailure]
    have hin : InFault (s'.emit e).raiseTransportFailure := ⟨core.resetInput.trans hrel, rfl, by rw [hstatus]⟩
    exact ⟨fun _ => ⟨rfl, rfl, hstatus, fun n u hno hrun => hin.run hno hrun⟩, fun hok => by simp [hok] at hfailed⟩
  · refine ⟨fun hfailed => by simp [hok] at hfailed, fun _ => ?_⟩
    obtain rfl | rfl := hnext <;> simp [core.status]

end Sys2Proof.Machine
end

section
/-! PROOFS. Exceptions: an illegal op word at admission (R82, R231, R261), and what an `OP` write answers in FAULT
(R265). -/

namespace Sys2Proof.Machine

/-! ## Illegal op words (R81, R82) -/

/-- A word that decodes to an op has one of the six OPCs of R81 and 0 in its must-be-zero fields: it is the word of that
op. -/
theorem decodeHost_ok_fields {w : Word} {i : Instr} (h : decodeHost w = .ok i) :
    opcField w ≠ 0x0#4 ∧ (opcField w).toNat < 7 ∧ opWordMustBeZeroOk w = true := by
  have hmbz : opWordMustBeZeroOk w = (resField w == 0#3 && highField w == 0#16
      && (modeField w == 0#1 || opcField w == 0x1#4 || opcField w == 0x2#4)
      && (fillField w == 0#8 || opcField w == 0x3#4)) := rfl
  rw [hmbz]
  have hw := encode_of_decodeHost (t := Config.defaultCmd) h
  cases i with
  | init | setlut | clear | draw | refresh | sleep =>
    obtain rfl := Encoding.opWord.inj hw
    simp
  | _ => cases hw

/-- A word with a reserved OPC or a must-be-zero field that is not zero decodes to Illegal (R261). -/
theorem decodeHost_illegal {w : Word}
    (h : opcField w = 0x0#4 ∨ 7 ≤ (opcField w).toNat ∨ opWordMustBeZeroOk w = false) :
    ∃ r, decodeHost w = .error r := by
  cases hd : decodeHost w with
  | error r => exact ⟨r, rfl⟩
  | ok i =>
    obtain ⟨hzero, hlt, hmbz⟩ := decodeHost_ok_fields hd
    obtain h | h | h := h
    · exact absurd h hzero
    · exact absurd hlt (Nat.not_lt.mpr h)
    · simp [hmbz] at h

theorem opWrite_of_illegal {w : Word} {r : Illegal} (h : decodeHost w = .error r) (s : State) :
    opWrite w s = .next s.onIllegalWrite := by simp only [opWrite, h]

/-- At rest, an end other than TransportFailure with REJ cleared first changes only REJ and ERR (R230, R233). -/
theorem State.clearRej_endWith_at_rest {s : State} {code : ErrCode} (hcode : code ≠ .transportFailure)
    (hp : s.phase ≠ .run) (hbusy : s.status.busy = false) (hsp : s.sp = 0) :
    s.clearRej.endWith code = { s with status := { s.status with rej := false, err := code } } := by
  have hphase : phaseAfterEnd code s.clearRej.phase = s.phase := phaseAfterEnd_at_rest hcode hp
  have hstatus : s.clearRej.status.ended code = { s.status with rej := false, err := code } := by
    rw [Status.ended_of_ne hcode]
    simp [hbusy]
  rw [State.endWith, hphase, hstatus, ← hsp]
  rfl

/-- Settles O5: the word decodes to Illegal, and without a fault the block at rest ends it ILLEGAL_OP. -/
theorem illegalOpEndsAtAdmission : Obligations.IllegalOpEndsAtAdmission := by
  refine ⟨rfl, fun s w rest hrel hh hidle hbusy hfault hsp hbad => ?_⟩
  have hp : s.phase ≠ .run := by simp [hidle]
  obtain ⟨r, hd⟩ := decodeHost_illegal hbad
  rw [step_of_action hrel hh, hostAct_wregOp, opWrite_of_illegal hd,
    State.onIllegalWrite_of_no_fault (s := { s with host := rest }) hp hfault]
  exact congrArg _ (State.clearRej_endWith_at_rest (s := { s with host := rest }) nofun hp hbusy hsp)

/-! ## An `OP` write in FAULT (R265) -/

/-- In FAULT any word, legal or not and INIT's among them, ends FAULTED. -/
theorem InFault.opWrite {s : State} (hs : InFault s) (w : Word) :
    opWrite w s = .next (s.clearRej.endWith .faulted) := by
  obtain ⟨i, op, mode, fill, -, -, e⟩ | ⟨r, -, e⟩ := opWrite_cases w s <;> rw [e]
  · rw [State.onOpWrite_of_not_run hs.not_run, State.admission_of_fault (s := s.clearRej) hs.fault]
  · rw [State.onIllegalWrite_of_fault hs.not_run hs.fault]

/-- Settles O42: `InFault` lasts, and an `OP` write is answered by `InFault.opWrite`. -/
theorem faultLastsUntilBlockReset : Obligations.FaultLastsUntilBlockReset := by
  intro s t hrel hphase hfault hno h
  have hs : InFault s := ⟨hrel, hphase, hfault⟩
  obtain ⟨ht, htrace⟩ := hs.after_step hno h
  refine ⟨ht.phase, ht.fault, htrace, fun w rest hh => ⟨?_, rfl⟩⟩
  have hs' : InFault { s with host := rest } := ⟨hrel, hphase, hfault⟩
  rw [step_of_action hrel hh, hostAct_wregOp, hs'.opWrite w] at h
  obtain rfl := Host.Outcome.next.inj h
  rfl

end Sys2Proof.Machine
end
